-- ==== Sys2Proof/Word.lean ====
section
/-! DEFINITION. The bit-string types of the two encoded interfaces of the block: command words coming in,
register writes and output samples going out. -/

namespace Sys2Proof

/-- One 8-bit value: a chip register's contents (R84) or one byte of a MIDI message (R112). -/
abbrev Byte := BitVec 8

/-- A command word (R110): `w[31:24]` is the kind, `w[23:0]` the payload. -/
abbrev Word := BitVec 32

/-- The 24-bit pattern of a register-write record (R123): address in bits 23:8, value in bits 7:0. -/
abbrev Record := BitVec 24

/-- A chip register address (R80 (3)). -/
abbrev Addr := BitVec 16

/-- One element of the output buffer: a signed 16-bit sample (R83), as its two's complement bits. -/
abbrev Sample := BitVec 16

end Sys2Proof
end

