-- ==== Sys2Proof/Config.lean ====
section
/-! DEFINITION. What is fixed for a machine while it runs: the parameters of R8 as one record of plain data
(`Config`, carried by the state and written by no command), the types those parameters need, and the parameter
`CORE` (the chip cores' own behaviour) as constants without a body. The default values stand in
Sys2Proof/Machine/Defaults.lean, the named approximations of EXP2 and SIN2PI in Sys2Proof/Machine/Reals.lean. -/

namespace Sys2Proof

/-- The selected chip (R3, R32). -/
inductive Chip where
  | nes
  | gb
deriving DecidableEq, Repr

/-- The three allocation modes of `P.mode` (R33 id 15, R44). -/
inductive AllocMode where
  | lead
  | locked
  | auto
deriving DecidableEq, Repr

/-- The parameter MOD_WHEEL_MODE (R8, R365). -/
inductive ModWheelMode where
  | ignore
  | setVibratoDepth
deriving DecidableEq, Repr

/-- The parameter vector `P` (R33), fields 1..17 in id order. Field 0 (`chip`) is `Instance.chip` and field 18
(`preset`) is `Instance.presetId`. -/
structure Params where
  /-- id 1, 0..3 (R34) -/
  duty : Nat
  /-- id 2, 0..15 (R35) -/
  attack : Nat
  /-- id 3, 0..15 (R35) -/
  decay : Nat
  /-- id 4, 0..15 (R35) -/
  sustain : Nat
  /-- id 5, 0..15 (R35) -/
  release : Nat
  /-- id 6, 0..127 (R36) -/
  sweep : Nat
  /-- id 7, 0..100 cents (R37) -/
  vibDepth : Nat
  /-- id 8, 0..20 Hz (R37) -/
  vibRate : Nat
  /-- id 9, 0 long, 1 short (R38) -/
  noiseMode : Nat
  /-- id 10, 0..N_WAVETABLES-1 (R39) -/
  wavetable : Nat
  /-- id 11, 0..15 (R40) -/
  mask : Nat
  /-- id 12, 0..100 cents (R41) -/
  detune : Nat
  /-- id 13, 0..15 (R42) -/
  volume : Nat
  /-- id 14, -3..3 (R43) -/
  octave : Int
  /-- id 15 (R44) -/
  mode : AllocMode
  /-- id 16, -24..24 semitones (R45) -/
  penvDepth : Int
  /-- id 17, 0..15 (R45) -/
  penvSpeed : Nat
deriving DecidableEq, Repr

/-- A register-write record (R123): cycle offset within the block, register address, value. -/
structure WriteRecord where
  time : Nat
  addr : Addr
  value : Byte
deriving DecidableEq, Repr

/-- Which real function a configuration takes for EXP2 or SIN2PI (R8, R12, 93_implementation_defined.md X4). -/
inductive RealFunction where
  /-- the named approximation of Machine/Reals.lean -/
  | approximation
  /-- the function `Config.realFunction k`, of which nothing is known -/
  | given (k : Nat)
deriving DecidableEq, Repr

/-- The implementation parameters of R8 that are numbers, tables or choices. DESIGN CHOICE (log entry 28): R8 gives the
numbers no type; here each is a natural number, but `OUTPUT_GAIN`, which is a rational. -/
structure Config where
  /-- `POOL_SIZE`, voice slots -/
  poolSize : Nat
  /-- `N_CHANNELS`, hardware channels: those with a lower index. The rules give a channel of index 0..3 its type, its
  registers and its mask bit (R40, R65, R270, R300) and none of a higher index (log entry 5). -/
  nChannels : Nat
  /-- `SR`, audio sample rate in Hz -/
  sr : Nat
  /-- `FPB`, frames per block -/
  fpb : Nat
  /-- `ATTACK_DIV` -/
  attackDiv : Nat
  /-- `DR_DIV` -/
  drDiv : Nat
  /-- `PENV_DIV` -/
  penvDiv : Nat
  /-- `HIGH_NOTE`, the Auto mode noise threshold -/
  highNote : Nat
  /-- `BEND_RANGE` in semitones -/
  bendRange : Nat
  /-- `A4_HZ` -/
  a4Hz : Nat
  /-- `A4_NOTE` -/
  a4Note : Nat
  /-- `NES_CLOCK` in Hz -/
  nesClock : Nat
  /-- `GB_CLOCK` in Hz -/
  gbClock : Nat
  /-- `WRITE_STEP`, cycles between successive writes of a block -/
  writeStep : Nat
  /-- `OUTPUT_GAIN` -/
  outputGain : Rat
  /-- `WAVETABLES`; its length is `N_WAVETABLES` -/
  wavetables : List (Vector Byte 16)
  /-- `NES_NOISE_TABLE`, entry n for note n -/
  nesNoise : List Nat
  /-- `GB_NOISE_TABLE`, entry n for note n -/
  gbNoise : List Byte
  /-- `PRESETS` (R58); its length is `N_PRESETS` -/
  presets : List Params
  /-- `MOD_WHEEL_MODE` -/
  modWheel : ModWheelMode
  /-- `EXP2` -/
  exp2 : RealFunction
  /-- `SIN2PI` -/
  sin2pi : RealFunction
deriving DecidableEq, Repr

/-- What R8 and the rules that use the parameters presuppose of them: the divisions by `SR` and the divisors are
meant, a rate lies in (0, 1] ("for SR ≥ div", R160), the bend range is positive, the note tables cover notes 0..127
with the entries' ranges of R8, there are a wavetable 0, a preset 0, a slot and a channel 0 (the values after
creation, R440), and no channel has an index above 3 (R9). -/
abbrev Config.wf (c : Config) : Prop :=
  0 < c.fpb ∧ 0 < c.attackDiv ∧ c.attackDiv ≤ c.sr ∧ 0 < c.drDiv ∧ c.drDiv ≤ c.sr ∧ 0 < c.penvDiv ∧
  0 < c.bendRange ∧ 0 < c.a4Hz ∧ 0 < c.nesClock ∧ 0 < c.gbClock ∧ 0 < c.writeStep ∧
  0 < c.wavetables.length ∧ 0 < c.presets.length ∧
  c.nesNoise.length = 128 ∧ (∀ x ∈ c.nesNoise, x < 16) ∧ c.gbNoise.length = 128 ∧
  0 < c.poolSize ∧ 0 < c.nChannels ∧ c.nChannels ≤ 4

/-! ### The parameter CORE (R8, R62, R340; 93_implementation_defined.md X2, X10)

The chip cores are opaque engines. A core's own state is a `Nat` that only these constants read or make (a code of
whatever the core holds), and none of them has a body, so a statement about the machine holds for every core
(log entry 10). -/

/-- The core's own reset state for a chip (R440). -/
opaque Config.coreReset : Chip → Nat

/-- The value the chip register at an address holds in the core's own reset state, before its first write (R440;
log entry 11). -/
opaque Config.coreRegister : Nat → Byte

/-- The core's state after `EndFrame(c)`: it consumed the given writes and ran `c` cycles (R340 (a)). -/
opaque Config.coreEndFrame : Chip → Nat → List WriteRecord → Nat → Nat

/-- `ReadPCM(n)` of the mono NES core: the frames it delivers and its state afterwards (R340 (b), R341). -/
opaque Config.coreReadMono : Nat → Nat → List Int × Nat

/-- `ReadPCM(n)` of the stereo GB core: the frames it delivers and its state afterwards (R340 (b), R341). -/
opaque Config.coreReadStereo : Nat → Nat → List (Int × Int) × Nat

/-! ### Other functions for EXP2 and SIN2PI (R8, R12) -/

/-- The functions of `RealFunction.given`: constants without a body, so a statement about every configuration holds
whatever function a configuration takes (log entries 8 and 9). -/
opaque Config.realFunction : Nat → Rat → Rat

end Sys2Proof
end

