-- ==== Sys2Proof/Syntax.lean ====
section
/-! DEFINITION. The instructions: one constructor per row of spec/opcode_table.json. The 20 CMD32 rows are the
commands the host delivers (R110..R122); the 53 REGWRITE24 rows are the register-write records the block hands to
its chip core (R123), one per chip register of R81 and R82, each with the 8-bit value written. -/

namespace Sys2Proof

/-- The rows of the opcode table, in its order. -/
inductive Instr where
  /-- MIDI_MALFORMED_STATUS (R119, R370): a status byte below 0x80; `status` is its low seven bits, `d1` and `d2` the other bytes. -/
  | midiMalformedStatus (status : BitVec 7) (d1 d2 : Byte)
  /-- MIDI_MALFORMED_DATA1 (R119, R370): status byte 0x80 + `status`, data byte 1 is 0x80 + `d1`. -/
  | midiMalformedData1 (status d1 : BitVec 7) (d2 : Byte)
  /-- MIDI_MALFORMED_DATA2 (R119, R370): status byte 0x80 + `status` of a 3-byte message, data byte 2 is 0x80 + `d2`. -/
  | midiMalformedData2 (status d1 d2 : BitVec 7)
  /-- NOTE_OFF (R114, R364): MIDI channel, note, release velocity. -/
  | noteOff (ch : BitVec 4) (n v : BitVec 7)
  /-- NOTE_ON_V0 (R115, R363): MIDI channel, note. -/
  | noteOnV0 (ch : BitVec 4) (n : BitVec 7)
  /-- NOTE_ON (R115, R362): MIDI channel, note, velocity 1..127. -/
  | noteOn (ch : BitVec 4) (n v : BitVec 7)
  /-- POLY_AT (R118, R369). -/
  | polyAt (ch : BitVec 4) (n x : BitVec 7)
  /-- CC_MODWHEEL (R116, R365): controller 1. -/
  | ccModwheel (ch : BitVec 4) (x : BitVec 7)
  /-- CC_ALL_NOTES_OFF (R116, R366): controller 123. -/
  | ccAllNotesOff (ch : BitVec 4) (x : BitVec 7)
  /-- CC_OTHER (R116, R367): controller `k`, not 1 or 123. -/
  | ccOther (ch : BitVec 4) (k x : BitVec 7)
  /-- PROG_CHANGE (R113, R118, R369): a 2-byte message; `pad` is the ignored third byte of the word. -/
  | progChange (ch : BitVec 4) (p : BitVec 7) (pad : Byte)
  /-- CHAN_PRESSURE (R113, R118, R369): a 2-byte message; `pad` is the ignored third byte of the word. -/
  | chanPressure (ch : BitVec 4) (x : BitVec 7) (pad : Byte)
  /-- PITCH_BEND (R117, R368): the 14-bit value, already assembled from its two data bytes. -/
  | pitchBend (ch : BitVec 4) (b : BitVec 14)
  /-- MIDI_SYSTEM (R118, R369): status byte 0xF0 + `lo`. Data byte 1 has bit 7 clear, since the table's row
  MIDI_MALFORMED_DATA1 comes first (log entry 18). -/
  | midiSystem (lo : BitVec 4) (d1 : BitVec 7) (d2 : Byte)
  /-- CREATE (R110, R377). -/
  | create (chip : Chip)
  /-- DESTROY (R110, R378). -/
  | destroy
  /-- RENDER (R110, R379). -/
  | render (frames : BitVec 16)
  /-- SET_PARAM (R110, R371): parameter id, 16-bit two's complement value. -/
  | setParam (id : BitVec 8) (value : BitVec 16)
  /-- GET_PARAM (R110, R376). -/
  | getParam (id : BitVec 8)
  /-- RESERVED (R111): a word no other row matches. -/
  | reserved (w : Word)
  /-- NES_PULSE1_CTRL: `$4000` (R272; also R273, R279). -/
  | nesPulse1Ctrl (value : Byte)
  /-- NES_PULSE1_SWEEP: `$4001` (R272). -/
  | nesPulse1Sweep (value : Byte)
  /-- NES_PULSE1_LO: `$4002` (R272; also R273). -/
  | nesPulse1Lo (value : Byte)
  /-- NES_PULSE1_HI: `$4003` (R272; trigger blocks only). -/
  | nesPulse1Hi (value : Byte)
  /-- NES_PULSE2_CTRL: `$4004` (R272; also R273, R279). -/
  | nesPulse2Ctrl (value : Byte)
  /-- NES_PULSE2_SWEEP: `$4005` (R272). -/
  | nesPulse2Sweep (value : Byte)
  /-- NES_PULSE2_LO: `$4006` (R272; also R273). -/
  | nesPulse2Lo (value : Byte)
  /-- NES_PULSE2_HI: `$4007` (R272; trigger blocks only). -/
  | nesPulse2Hi (value : Byte)
  /-- NES_TRI_LINEAR: `$4008` (R274; also R279). -/
  | nesTriLinear (value : Byte)
  /-- NES_TRI_LO: `$400A` (R274; also R275). -/
  | nesTriLo (value : Byte)
  /-- NES_TRI_HI: `$400B` (R274; trigger blocks only). -/
  | nesTriHi (value : Byte)
  /-- NES_NOISE_CTRL: `$400C` (R277; also R278, R279). -/
  | nesNoiseCtrl (value : Byte)
  /-- NES_NOISE_MODE: `$400E` (R277; also R278). -/
  | nesNoiseMode (value : Byte)
  /-- NES_NOISE_LEN: `$400F` (R277; trigger blocks only). -/
  | nesNoiseLen (value : Byte)
  /-- NES_STATUS: `$4015` (R280; init prefix). -/
  | nesStatus (value : Byte)
  /-- NES_FRAME_COUNTER: `$4017` (R280; init prefix). -/
  | nesFrameCounter (value : Byte)
  /-- GB_NR10: `$FF10` (R302; square 1 trigger only). -/
  | gbNr10 (value : Byte)
  /-- GB_NR11: `$FF11` (R302). -/
  | gbNr11 (value : Byte)
  /-- GB_NR12: `$FF12` (R302; also R303, R311 (0x00)). -/
  | gbNr12 (value : Byte)
  /-- GB_NR13: `$FF13` (R302; also R303). -/
  | gbNr13 (value : Byte)
  /-- GB_NR14: `$FF14` (R302; trigger blocks only). -/
  | gbNr14 (value : Byte)
  /-- GB_NR21: `$FF16` (R302). -/
  | gbNr21 (value : Byte)
  /-- GB_NR22: `$FF17` (R302; also R303, R311). -/
  | gbNr22 (value : Byte)
  /-- GB_NR23: `$FF18` (R302; also R303). -/
  | gbNr23 (value : Byte)
  /-- GB_NR24: `$FF19` (R302; trigger blocks only). -/
  | gbNr24 (value : Byte)
  /-- GB_NR30: `$FF1A` (R305; also R311). -/
  | gbNr30 (value : Byte)
  /-- GB_NR31: `$FF1B` (R305). -/
  | gbNr31 (value : Byte)
  /-- GB_NR32: `$FF1C` (R305; also R306). -/
  | gbNr32 (value : Byte)
  /-- GB_NR33: `$FF1D` (R305; also R306). -/
  | gbNr33 (value : Byte)
  /-- GB_NR34: `$FF1E` (R305; trigger blocks only). -/
  | gbNr34 (value : Byte)
  /-- GB_NR41: `$FF20` (R309). -/
  | gbNr41 (value : Byte)
  /-- GB_NR42: `$FF21` (R309; also R310, R311). -/
  | gbNr42 (value : Byte)
  /-- GB_NR43: `$FF22` (R309; also R310). -/
  | gbNr43 (value : Byte)
  /-- GB_NR44: `$FF23` (R309; trigger blocks only). -/
  | gbNr44 (value : Byte)
  /-- GB_NR50: `$FF24` (R312; init prefix). -/
  | gbNr50 (value : Byte)
  /-- GB_NR51: `$FF25` (R312; init prefix). -/
  | gbNr51 (value : Byte)
  /-- GB_NR52: `$FF26` (R312; init prefix). -/
  | gbNr52 (value : Byte)
  /-- GB_WAVE_RAM_0: `$FF30` (R305; wave trigger blocks only; WAVETABLES(P.wavetable)[0]). -/
  | gbWaveRam0 (value : Byte)
  /-- GB_WAVE_RAM_1: `$FF31` (R305; wave trigger blocks only; WAVETABLES(P.wavetable)[1]). -/
  | gbWaveRam1 (value : Byte)
  /-- GB_WAVE_RAM_2: `$FF32` (R305; wave trigger blocks only; WAVETABLES(P.wavetable)[2]). -/
  | gbWaveRam2 (value : Byte)
  /-- GB_WAVE_RAM_3: `$FF33` (R305; wave trigger blocks only; WAVETABLES(P.wavetable)[3]). -/
  | gbWaveRam3 (value : Byte)
  /-- GB_WAVE_RAM_4: `$FF34` (R305; wave trigger blocks only; WAVETABLES(P.wavetable)[4]). -/
  | gbWaveRam4 (value : Byte)
  /-- GB_WAVE_RAM_5: `$FF35` (R305; wave trigger blocks only; WAVETABLES(P.wavetable)[5]). -/
  | gbWaveRam5 (value : Byte)
  /-- GB_WAVE_RAM_6: `$FF36` (R305; wave trigger blocks only; WAVETABLES(P.wavetable)[6]). -/
  | gbWaveRam6 (value : Byte)
  /-- GB_WAVE_RAM_7: `$FF37` (R305; wave trigger blocks only; WAVETABLES(P.wavetable)[7]). -/
  | gbWaveRam7 (value : Byte)
  /-- GB_WAVE_RAM_8: `$FF38` (R305; wave trigger blocks only; WAVETABLES(P.wavetable)[8]). -/
  | gbWaveRam8 (value : Byte)
  /-- GB_WAVE_RAM_9: `$FF39` (R305; wave trigger blocks only; WAVETABLES(P.wavetable)[9]). -/
  | gbWaveRam9 (value : Byte)
  /-- GB_WAVE_RAM_A: `$FF3A` (R305; wave trigger blocks only; WAVETABLES(P.wavetable)[10]). -/
  | gbWaveRamA (value : Byte)
  /-- GB_WAVE_RAM_B: `$FF3B` (R305; wave trigger blocks only; WAVETABLES(P.wavetable)[11]). -/
  | gbWaveRamB (value : Byte)
  /-- GB_WAVE_RAM_C: `$FF3C` (R305; wave trigger blocks only; WAVETABLES(P.wavetable)[12]). -/
  | gbWaveRamC (value : Byte)
  /-- GB_WAVE_RAM_D: `$FF3D` (R305; wave trigger blocks only; WAVETABLES(P.wavetable)[13]). -/
  | gbWaveRamD (value : Byte)
  /-- GB_WAVE_RAM_E: `$FF3E` (R305; wave trigger blocks only; WAVETABLES(P.wavetable)[14]). -/
  | gbWaveRamE (value : Byte)
  /-- GB_WAVE_RAM_F: `$FF3F` (R305; wave trigger blocks only; WAVETABLES(P.wavetable)[15]). -/
  | gbWaveRamF (value : Byte)
deriving DecidableEq, Repr

end Sys2Proof
end

