-- ==== Sys2Proof/WellFormed.lean ====
section
/-! DEFINITION. Which terms of `Instr` stand for a word: the operand conditions of the opcode table's rows that the
operand types do not already say. -/

namespace Sys2Proof

/-- `S[7:4]` of a status byte (R112), from the byte's low seven bits: the message types 0x8..0xF less their top bit. -/
def midiType (status : BitVec 7) : BitVec 3 := status.extractLsb' 4 3

/-- A 3-byte message type (R113: 0x8, 0x9, 0xA, 0xB, 0xE), given less its top bit. -/
def threeByteType (t : BitVec 3) : Bool :=
  t == 0 || t == 1 || t == 2 || t == 3 || t == 6

/-- The words of R111: a reserved command kind, or a must-be-zero bit that is not zero. -/
def reservedWord (w : Word) : Bool :=
  6 ≤ (w.extractLsb' 24 8).toNat ||
  (w.extractLsb' 24 8 == 1 && w.extractLsb' 1 23 != 0) ||
  (w.extractLsb' 24 8 == 2 && w.extractLsb' 0 24 != 0) ||
  (w.extractLsb' 24 8 == 3 && w.extractLsb' 16 8 != 0) ||
  (w.extractLsb' 24 8 == 5 && w.extractLsb' 0 16 != 0)

/-- Well-formed instructions: MIDI_MALFORMED_DATA2 only for 3-byte messages (the row's condition), NOTE_ON with a
velocity of 1..127, CC_OTHER with a controller other than 1 and 123, RESERVED with a word of R111. Every other
operand is any value of its type. -/
def Instr.wf : Instr → Bool
  | .midiMalformedData2 status _ _ => threeByteType (midiType status)
  | .noteOn _ _ v => v != 0
  | .ccOther _ k _ => k != 1 && k != 123
  | .reserved w => reservedWord w
  | .midiMalformedStatus _ _ _ | .midiMalformedData1 _ _ _ | .noteOff _ _ _ | .noteOnV0 _ _ | .polyAt _ _ _
  | .ccModwheel _ _ | .ccAllNotesOff _ _ | .progChange _ _ _ | .chanPressure _ _ _ | .pitchBend _ _
  | .midiSystem _ _ _ | .create _ | .destroy | .render _ | .setParam _ _
  | .getParam _ | .nesPulse1Ctrl _ | .nesPulse1Sweep _ | .nesPulse1Lo _ | .nesPulse1Hi _
  | .nesPulse2Ctrl _ | .nesPulse2Sweep _ | .nesPulse2Lo _ | .nesPulse2Hi _ | .nesTriLinear _
  | .nesTriLo _ | .nesTriHi _ | .nesNoiseCtrl _ | .nesNoiseMode _ | .nesNoiseLen _
  | .nesStatus _ | .nesFrameCounter _ | .gbNr10 _ | .gbNr11 _ | .gbNr12 _
  | .gbNr13 _ | .gbNr14 _ | .gbNr21 _ | .gbNr22 _ | .gbNr23 _
  | .gbNr24 _ | .gbNr30 _ | .gbNr31 _ | .gbNr32 _ | .gbNr33 _
  | .gbNr34 _ | .gbNr41 _ | .gbNr42 _ | .gbNr43 _ | .gbNr44 _
  | .gbNr50 _ | .gbNr51 _ | .gbNr52 _ | .gbWaveRam0 _ | .gbWaveRam1 _
  | .gbWaveRam2 _ | .gbWaveRam3 _ | .gbWaveRam4 _ | .gbWaveRam5 _ | .gbWaveRam6 _
  | .gbWaveRam7 _ | .gbWaveRam8 _ | .gbWaveRam9 _ | .gbWaveRamA _ | .gbWaveRamB _
  | .gbWaveRamC _ | .gbWaveRamD _ | .gbWaveRamE _ | .gbWaveRamF _ => true

end Sys2Proof
end

