-- ==== Sys2Proof/Decode.lean ====
section
/-! DEFINITION. Decoding what the host delivers, and the encoder beside it. A delivery is a 32-bit command word (R110)
or a 24-bit register-write pattern (R123); decoding is total, and a pattern that is no row of the table is rejected
by name. A command word is never rejected here: the row RESERVED takes every word no other row matches. -/

namespace Sys2Proof

/-- One encoded instruction: the opcode table's format CMD32 or REGWRITE24. -/
inductive Packet where
  | command (w : Word)
  | record (r : Record)
deriving DecidableEq, Repr

/-- Why a packet decodes to no instruction. -/
inductive DecodeError where
  /-- the address is none of R81 and R82 -/
  | unknownRegister (addr : Addr)
deriving DecidableEq, Repr

/-- A MIDI word (kind 0x00), in the decode priority of R121: malformed messages first, NOTE_ON_V0 before NOTE_ON,
controllers 1 and 123 before CC_OTHER. -/
def decodeMidi (w : Word) : Instr :=
  let status : BitVec 7 := w.extractLsb' 16 7
  let d1 : BitVec 7 := w.extractLsb' 8 7
  let d2 : BitVec 7 := w.extractLsb' 0 7
  let pad : Byte := w.extractLsb' 0 8
  let ch : BitVec 4 := w.extractLsb' 16 4
  if !w.getLsbD 23 then .midiMalformedStatus status (w.extractLsb' 8 8) pad
  else if w.getLsbD 15 then .midiMalformedData1 status d1 pad
  else if w.getLsbD 7 && threeByteType (midiType status) then .midiMalformedData2 status d1 d2
  else if midiType status = 0 then .noteOff ch d1 d2
  else if midiType status = 1 then (if d2 = 0 then .noteOnV0 ch d1 else .noteOn ch d1 d2)
  else if midiType status = 2 then .polyAt ch d1 d2
  else if midiType status = 3 then
    (if d1 = 1 then .ccModwheel ch d2 else if d1 = 123 then .ccAllNotesOff ch d2 else .ccOther ch d1 d2)
  else if midiType status = 4 then .progChange ch d1 pad
  else if midiType status = 5 then .chanPressure ch d1 pad
  else if midiType status = 6 then .pitchBend ch (d2 ++ d1)
  else .midiSystem ch d1 pad

/-- `w[0]` of a CREATE word (R110): 0 = NES, 1 = GB. -/
def chipOfBit (b : Bool) : Chip := if b then .gb else .nes

/-- A command word (R110): the kind `w[31:24]` selects the command, and a word of R111 is RESERVED. -/
def decodeCommand (w : Word) : Instr :=
  let kind : Byte := w.extractLsb' 24 8
  if kind = 0 then decodeMidi w
  else if reservedWord w then .reserved w
  else if kind = 1 then .create (chipOfBit (w.getLsbD 0))
  else if kind = 2 then .destroy
  else if kind = 3 then .render (w.extractLsb' 0 16)
  else if kind = 4 then .setParam (w.extractLsb' 16 8) (w.extractLsb' 0 16)
  else .getParam (w.extractLsb' 16 8)

/-- The row of a register address (R81, R82), with the value written; none for an address no row names. -/
def recordRow (a : Nat) (v : Byte) : Option Instr :=
  match a with
  | 0x4000 => some (.nesPulse1Ctrl v)
  | 0x4001 => some (.nesPulse1Sweep v)
  | 0x4002 => some (.nesPulse1Lo v)
  | 0x4003 => some (.nesPulse1Hi v)
  | 0x4004 => some (.nesPulse2Ctrl v)
  | 0x4005 => some (.nesPulse2Sweep v)
  | 0x4006 => some (.nesPulse2Lo v)
  | 0x4007 => some (.nesPulse2Hi v)
  | 0x4008 => some (.nesTriLinear v)
  | 0x400A => some (.nesTriLo v)
  | 0x400B => some (.nesTriHi v)
  | 0x400C => some (.nesNoiseCtrl v)
  | 0x400E => some (.nesNoiseMode v)
  | 0x400F => some (.nesNoiseLen v)
  | 0x4015 => some (.nesStatus v)
  | 0x4017 => some (.nesFrameCounter v)
  | 0xFF10 => some (.gbNr10 v)
  | 0xFF11 => some (.gbNr11 v)
  | 0xFF12 => some (.gbNr12 v)
  | 0xFF13 => some (.gbNr13 v)
  | 0xFF14 => some (.gbNr14 v)
  | 0xFF16 => some (.gbNr21 v)
  | 0xFF17 => some (.gbNr22 v)
  | 0xFF18 => some (.gbNr23 v)
  | 0xFF19 => some (.gbNr24 v)
  | 0xFF1A => some (.gbNr30 v)
  | 0xFF1B => some (.gbNr31 v)
  | 0xFF1C => some (.gbNr32 v)
  | 0xFF1D => some (.gbNr33 v)
  | 0xFF1E => some (.gbNr34 v)
  | 0xFF20 => some (.gbNr41 v)
  | 0xFF21 => some (.gbNr42 v)
  | 0xFF22 => some (.gbNr43 v)
  | 0xFF23 => some (.gbNr44 v)
  | 0xFF24 => some (.gbNr50 v)
  | 0xFF25 => some (.gbNr51 v)
  | 0xFF26 => some (.gbNr52 v)
  | 0xFF30 => some (.gbWaveRam0 v)
  | 0xFF31 => some (.gbWaveRam1 v)
  | 0xFF32 => some (.gbWaveRam2 v)
  | 0xFF33 => some (.gbWaveRam3 v)
  | 0xFF34 => some (.gbWaveRam4 v)
  | 0xFF35 => some (.gbWaveRam5 v)
  | 0xFF36 => some (.gbWaveRam6 v)
  | 0xFF37 => some (.gbWaveRam7 v)
  | 0xFF38 => some (.gbWaveRam8 v)
  | 0xFF39 => some (.gbWaveRam9 v)
  | 0xFF3A => some (.gbWaveRamA v)
  | 0xFF3B => some (.gbWaveRamB v)
  | 0xFF3C => some (.gbWaveRamC v)
  | 0xFF3D => some (.gbWaveRamD v)
  | 0xFF3E => some (.gbWaveRamE v)
  | 0xFF3F => some (.gbWaveRamF v)
  | _ => none

/-- A register-write pattern (R123): the address in bits 23:8 names the row, bits 7:0 are the value. -/
def decodeRecord (r : Record) : Except DecodeError Instr :=
  match recordRow (r.extractLsb' 8 16).toNat (r.extractLsb' 0 8) with
  | some i => .ok i
  | none => .error (.unknownRegister (r.extractLsb' 8 16))

/-- Decoding a delivery. -/
def decode : Packet → Except DecodeError Instr
  | .command w => .ok (decodeCommand w)
  | .record r => decodeRecord r

/-- The packet of the opcode table's row of `nbits` bits whose bits are `w`: a 24-bit row is a register-write pattern
and any other a command word, the bits above `nbits` zero; no row is longer than 32 bits. -/
def packetOfTableWord (nbits w : Nat) : Option Packet :=
  if nbits = 24 then some (.record (BitVec.ofNat 24 w))
  else if nbits ≤ 32 then some (.command (BitVec.ofNat 32 (w % 2 ^ nbits)))
  else none

/-- The instruction the decoder reads from the bits `w` of an instruction of `nbits` bits, numbered as the opcode
table numbers them. -/
def decodeTableWord (nbits w : Nat) : Option Instr :=
  match packetOfTableWord nbits w with
  | none => none
  | some p =>
    match decode p with
    | .ok i => some i
    | .error _ => none

/-! ### The encoder, from the patterns of R110..R117 and R123 -/

/-- A MIDI word: kind 0x00, status byte, data bytes 1 and 2 (R110). -/
def midiWord (status d1 d2 : Byte) : Word := (0x00#8 ++ status ++ d1 ++ d2 : BitVec 32)

/-- A channel-voice word: message type `t`, MIDI channel and two data bytes of 7 bits (R112..R117). -/
def voiceWord (t ch : BitVec 4) (d1 d2 : BitVec 7) : Word := midiWord (t ++ ch) (0#1 ++ d1) (0#1 ++ d2)

/-- A register-write pattern: address and value (R123). -/
def recordPacket (a : Addr) (v : Byte) : Packet := .record (a ++ v)

/-- The packet of an instruction. -/
def encode : Instr → Packet
  | .midiMalformedStatus status d1 d2 => .command (midiWord (0#1 ++ status) d1 d2)
  | .midiMalformedData1 status d1 d2 => .command (midiWord (1#1 ++ status) (1#1 ++ d1) d2)
  | .midiMalformedData2 status d1 d2 => .command (midiWord (1#1 ++ status) (0#1 ++ d1) (1#1 ++ d2))
  | .noteOff ch n v => .command (voiceWord 0x8 ch n v)
  | .noteOnV0 ch n => .command (voiceWord 0x9 ch n 0)
  | .noteOn ch n v => .command (voiceWord 0x9 ch n v)
  | .polyAt ch n x => .command (voiceWord 0xA ch n x)
  | .ccModwheel ch x => .command (voiceWord 0xB ch 1 x)
  | .ccAllNotesOff ch x => .command (voiceWord 0xB ch 123 x)
  | .ccOther ch k x => .command (voiceWord 0xB ch k x)
  | .progChange ch p pad => .command (midiWord (0xC#4 ++ ch) (0#1 ++ p) pad)
  | .chanPressure ch x pad => .command (midiWord (0xD#4 ++ ch) (0#1 ++ x) pad)
  | .pitchBend ch b => .command (voiceWord 0xE ch (b.extractLsb' 0 7) (b.extractLsb' 7 7))
  | .midiSystem lo d1 d2 => .command (midiWord (0xF#4 ++ lo) (0#1 ++ d1) d2)
  | .create .nes => .command 0x01000000#32
  | .create .gb => .command 0x01000001#32
  | .destroy => .command 0x02000000#32
  | .render frames => .command (0x0300#16 ++ frames : BitVec 32)
  | .setParam id value => .command (0x04#8 ++ id ++ value : BitVec 32)
  | .getParam id => .command (0x05#8 ++ id ++ 0#16 : BitVec 32)
  | .reserved w => .command w
  | .nesPulse1Ctrl v => recordPacket 0x4000 v
  | .nesPulse1Sweep v => recordPacket 0x4001 v
  | .nesPulse1Lo v => recordPacket 0x4002 v
  | .nesPulse1Hi v => recordPacket 0x4003 v
  | .nesPulse2Ctrl v => recordPacket 0x4004 v
  | .nesPulse2Sweep v => recordPacket 0x4005 v
  | .nesPulse2Lo v => recordPacket 0x4006 v
  | .nesPulse2Hi v => recordPacket 0x4007 v
  | .nesTriLinear v => recordPacket 0x4008 v
  | .nesTriLo v => recordPacket 0x400A v
  | .nesTriHi v => recordPacket 0x400B v
  | .nesNoiseCtrl v => recordPacket 0x400C v
  | .nesNoiseMode v => recordPacket 0x400E v
  | .nesNoiseLen v => recordPacket 0x400F v
  | .nesStatus v => recordPacket 0x4015 v
  | .nesFrameCounter v => recordPacket 0x4017 v
  | .gbNr10 v => recordPacket 0xFF10 v
  | .gbNr11 v => recordPacket 0xFF11 v
  | .gbNr12 v => recordPacket 0xFF12 v
  | .gbNr13 v => recordPacket 0xFF13 v
  | .gbNr14 v => recordPacket 0xFF14 v
  | .gbNr21 v => recordPacket 0xFF16 v
  | .gbNr22 v => recordPacket 0xFF17 v
  | .gbNr23 v => recordPacket 0xFF18 v
  | .gbNr24 v => recordPacket 0xFF19 v
  | .gbNr30 v => recordPacket 0xFF1A v
  | .gbNr31 v => recordPacket 0xFF1B v
  | .gbNr32 v => recordPacket 0xFF1C v
  | .gbNr33 v => recordPacket 0xFF1D v
  | .gbNr34 v => recordPacket 0xFF1E v
  | .gbNr41 v => recordPacket 0xFF20 v
  | .gbNr42 v => recordPacket 0xFF21 v
  | .gbNr43 v => recordPacket 0xFF22 v
  | .gbNr44 v => recordPacket 0xFF23 v
  | .gbNr50 v => recordPacket 0xFF24 v
  | .gbNr51 v => recordPacket 0xFF25 v
  | .gbNr52 v => recordPacket 0xFF26 v
  | .gbWaveRam0 v => recordPacket 0xFF30 v
  | .gbWaveRam1 v => recordPacket 0xFF31 v
  | .gbWaveRam2 v => recordPacket 0xFF32 v
  | .gbWaveRam3 v => recordPacket 0xFF33 v
  | .gbWaveRam4 v => recordPacket 0xFF34 v
  | .gbWaveRam5 v => recordPacket 0xFF35 v
  | .gbWaveRam6 v => recordPacket 0xFF36 v
  | .gbWaveRam7 v => recordPacket 0xFF37 v
  | .gbWaveRam8 v => recordPacket 0xFF38 v
  | .gbWaveRam9 v => recordPacket 0xFF39 v
  | .gbWaveRamA v => recordPacket 0xFF3A v
  | .gbWaveRamB v => recordPacket 0xFF3B v
  | .gbWaveRamC v => recordPacket 0xFF3C v
  | .gbWaveRamD v => recordPacket 0xFF3D v
  | .gbWaveRamE v => recordPacket 0xFF3E v
  | .gbWaveRamF v => recordPacket 0xFF3F v

end Sys2Proof
end

