-- ==== Sys2Proof/Machine/Defaults.lean ====
section
/-! DEFINITION. The default values of the parameters (R8) and of the parameter vector (R33). They are what a machine
holds at reset; no statement of the package needs them unless it says so. -/

namespace Sys2Proof.Machine

/-- The default column of R33, fields 1..17. -/
def defaultParams : Params where
  duty := 2
  attack := 0
  decay := 5
  sustain := 10
  release := 3
  sweep := 0
  vibDepth := 0
  vibRate := 0
  noiseMode := 0
  wavetable := 0
  mask := 15
  detune := 0
  volume := 15
  octave := 0
  mode := .auto
  penvDepth := 0
  penvSpeed := 0

/-- The default wavetable 0 (R8, decision D31): `01 23 45 67 89 AB CD EF FE DC BA 98 76 54 32 10`. -/
def defaultWavetable : Vector Byte 16 :=
  #v[0x01, 0x23, 0x45, 0x67, 0x89, 0xAB, 0xCD, 0xEF, 0xFE, 0xDC, 0xBA, 0x98, 0x76, 0x54, 0x32, 0x10]

/-- The default NES noise table (R276, decision D27): `15 - (n >> 3)`. -/
def defaultNesNoise : List Nat := (List.range 128).map fun n => 15 - (n >>> 3)

/-- The default GB noise table (R307, decision D30): shift `clamp(13 - (n >> 3), 0, 13)` in bits 7:4, divisor
`7 - (n & 7)` in bits 2:0. -/
def defaultGbNoise : List Byte :=
  (List.range 128).map fun n => BitVec.ofNat 8 (((13 - (n >>> 3)) <<< 4) ||| (7 - (n &&& 7)))

/-- DESIGN CHOICE (log entry 6): the preset table at reset. The spec leaves `N_PRESETS` and `PRESETS` open (R58);
eight presets, the count of R374's example, each the default column of R33. -/
def defaultPresets : List Params := List.replicate 8 defaultParams

/-- The values of R8; its OPEN parameters take the spec's own defaults where it gives one. -/
def defaultConfig : Config where
  poolSize := 5
  nChannels := 4
  sr := 44100
  fpb := 128
  attackDiv := 60
  drDiv := 15
  penvDiv := 60
  highNote := 96
  bendRange := 2
  a4Hz := 440
  a4Note := 69
  nesClock := 1789773
  gbClock := 4194304
  writeStep := 1
  outputGain := 1
  wavetables := [defaultWavetable]
  nesNoise := defaultNesNoise
  gbNoise := defaultGbNoise
  presets := defaultPresets
  modWheel := .ignore
  exp2 := .approximation
  sin2pi := .approximation

end Sys2Proof.Machine
end

