-- ==== Sys2Proof/Machine/State.lean ====
section
/-! DEFINITION. The machine's state as plain data: the state of the block (one `Instance` record or the null state ⊥,
R30), what a command hands back to the host, the host's queue of commands not yet taken, and the fixed parameters.
Every field is listed in INVENTORY.md. -/

namespace Sys2Proof.Machine

/-- The five stages of an envelope (R56). -/
inductive Stage where
  | idle
  | attack
  | decay
  | sustain
  | release
deriving DecidableEq, Repr

/-- The envelope record of a voice (R56). -/
structure Envelope where
  /-- current amplitude, 0..1 -/
  level : Rat
  stage : Stage
  /-- per-sample attack increment -/
  aRate : Rat
  /-- per-sample decay decrement -/
  dRate : Rat
  /-- per-sample release decrement -/
  rRate : Rat
  /-- sustain level -/
  sLevel : Rat
deriving DecidableEq, Repr

/-- A voice record (R54). -/
structure Voice where
  active : Bool
  /-- MIDI note after the transpose, 0..127 -/
  note : Nat
  /-- note-on velocity, 0..127 -/
  velocity : Nat
  /-- assigned hardware channel -/
  channel : Fin 4
  /-- allocation stamp, smaller is older -/
  age : Nat
  /-- the trigger write sequence has been issued -/
  triggered : Bool
  env : Envelope
  /-- pitch-envelope level in semitones -/
  penv : Rat
deriving DecidableEq, Repr

/-- What stands for the chip core `I.core` (R62). `inner` is the core's own state, which only the constants of
Config.lean read or make; the other fields are what the block's own writes and `EndFrame` calls fix. -/
structure ChipCore where
  /-- the opaque CoreState -/
  inner : Nat
  /-- writes emitted since the last `EndFrame` (R92, R340 (a)) -/
  enqueued : List WriteRecord
  /-- the chip register space (R80 (3)): every register of R81 and R82 by address, addresses rising, with the value
  last written to it, or before the first write the one it holds in the core's own reset state (log entry 11) -/
  regs : List Host.Cell
  /-- cycles the core was told to run (R67 (c), R410) -/
  cycles : Nat
deriving DecidableEq, Repr

/-- One synthesizer, the record `I` of R30. -/
structure Instance where
  /-- selected chip (R32) -/
  chip : Chip
  /-- the parameter vector `P`, fields 1..17 (R33) -/
  params : Params
  /-- `I.presetId` -/
  presetId : Nat
  /-- `V[0..POOL_SIZE-1]`, slot 0 first (R54) -/
  voices : List Voice
  /-- shared vibrato LFO phase, 0 ≤ phase < 1 (R57) -/
  lfoPhase : Rat
  /-- pitch-bend offset in semitones (R59) -/
  bend : Rat
  /-- last age stamp given out (R60) -/
  ageCounter : Nat
  /-- the next write list starts with the init prefix (R61) -/
  initPending : Bool
  /-- `I.core` (R62) -/
  core : ChipCore
  /-- the current block's write list `W` (R14, R330), kept until the next block starts (R415, log entry 17) -/
  writes : List WriteRecord
deriving DecidableEq, Repr

/-- What the last command that returns a value returned: CREATE (R377) and GET_PARAM (R376). -/
inductive Return where
  /-- no such command has completed yet -/
  | nothing
  | created
  /-- `CreateFailed` (R402) -/
  | createFailed
  /-- GET_PARAM's value, or none for an unknown id or on ⊥ -/
  | param (v : Option Int)
deriving DecidableEq, Repr

/-- One command the host delivers, with the environment's draw for it: whether a core allocation made by this command
succeeds (`CORE_ALLOC_OK`, R8; log entry 4). -/
structure Delivery where
  packet : Packet
  allocOk : Bool
deriving DecidableEq, Repr

/-- Why the machine stops with a fault: never. "No exceptions are used" (R400), so the type has no constructor. -/
inductive Fault where
deriving DecidableEq, Repr

/-- Why the machine gives a delivery no meaning. The block itself refuses nothing; these are the model's boundary
(R15), each safe: the machine stops where a real host would get some answer. -/
inductive Refusal where
  /-- `exec`, for an instruction without a meaning yet; safe. No arm of `exec` answers so. -/
  | notModelled (mnemonic : String)
  /-- `execReserved`: `Refused(reservedCommand)` (R111); safe -/
  | reservedCommand
  /-- `execRender` on an instance with a frame count other than FPB: `Refused(frameCount)` (R379, R458); safe -/
  | frameCount
  /-- `execCreate` while an instance exists: `Refused(alreadyCreated)` (R377); safe -/
  | alreadyCreated
  /-- `step`, for a register-write pattern whose address is no row of the table (log entry 13); safe -/
  | unknownRegister
deriving DecidableEq, Repr

/-- The machine's state. -/
structure State where
  /-- the parameters of R8; no command writes them (log entry 5) -/
  cfg : Config
  /-- the block's state: an instance, or none for ⊥ (R30) -/
  inst : Option Instance
  /-- commands delivered and not yet taken, oldest first (R90; log entry 2) -/
  inbox : List Delivery
  /-- the draw `CORE_ALLOC_OK` for the command being executed (log entry 4) -/
  allocOk : Bool
  /-- the output buffer as the last RENDER left it, left and right samples interleaved (R83; log entry 16) -/
  out : List Sample
  /-- what the last CREATE or GET_PARAM returned (log entry 15) -/
  ret : Return
deriving DecidableEq, Repr

/-- The machine before any command: the null state ⊥ with nothing delivered (R30, R442; log entry 1). RESET(chip) of
R440 is what a successful CREATE makes of it, `Instance.reset`. -/
def State.reset : State where
  cfg := defaultConfig
  inst := none
  inbox := []
  allocOk := true
  out := []
  ret := .nothing

end Sys2Proof.Machine
end

