-- ==== Sys2Proof/Machine/Ops.lean ====
section
/-! DEFINITION. The named operations over the state's parts: the chip register space, the interface primitives Emit,
EndFrame and ReadPCM (R14), the voice pool, the step from a command to an outcome.

Taking an exception: the block raises none, saves no state, has no handler and no return from one (R400, R407, R408),
so there is no such operation here; what stands in place of exceptions are the clamps of R401, each in the
operation that R401 names for it. -/

namespace Sys2Proof.Machine

/-! ### The chip register space (R80 (3), R81, R82, R84) -/

/-- The addresses of the NES chip registers (R81), rising. -/
def nesRegisters : List Nat :=
  [0x4000, 0x4001, 0x4002, 0x4003, 0x4004, 0x4005, 0x4006, 0x4007, 0x4008, 0x400A, 0x400B, 0x400C, 0x400E, 0x400F,
   0x4015, 0x4017]

/-- The addresses of the Game Boy chip registers (R82), rising: NR10 to NR52, then the wave RAM. -/
def gbRegisters : List Nat :=
  [0xFF10, 0xFF11, 0xFF12, 0xFF13, 0xFF14, 0xFF16, 0xFF17, 0xFF18, 0xFF19, 0xFF1A, 0xFF1B, 0xFF1C, 0xFF1D, 0xFF1E,
   0xFF20, 0xFF21, 0xFF22, 0xFF23, 0xFF24, 0xFF25, 0xFF26] ++
  [0xFF30, 0xFF31, 0xFF32, 0xFF33, 0xFF34, 0xFF35, 0xFF36, 0xFF37, 0xFF38, 0xFF39, 0xFF3A, 0xFF3B, 0xFF3C, 0xFF3D,
   0xFF3E, 0xFF3F]

/-- The addresses of all chip registers, rising. -/
def chipRegisters : List Nat := nesRegisters ++ gbRegisters

/-- The chip registers in the cores' own reset state: each holds a value of which nothing is known (log entry 11). -/
def Memory.created : List Host.Cell := chipRegisters.map fun a => (a, Config.coreRegister a)

/-- The value a chip register holds; none at an address that is no register. The block itself never reads a chip
register (R84). -/
def Memory.read? : List Host.Cell → Nat → Option Byte
  | [], _ => none
  | (b, v) :: rest, a => if a = b then some v else Memory.read? rest a

/-- One indivisible write of one byte (R84), keeping the addresses strictly rising. -/
def Memory.write : List Host.Cell → Nat → Byte → List Host.Cell
  | [], a, v => [(a, v)]
  | (b, w) :: rest, a, v =>
    if a < b then (a, v) :: (b, w) :: rest
    else if a = b then (a, v) :: rest
    else (b, w) :: Memory.write rest a v

/-- The canonical form: addresses strictly rising, each a 16-bit address. -/
def Memory.wf : List Host.Cell → Bool
  | [] => true
  | (a, _) :: rest => decide (a < 2 ^ 16) && rest.all (fun c => decide (a < c.1)) && Memory.wf rest

/-- The writes of a list, in list order (R91, R340 (a)). -/
def Memory.apply (m : List Host.Cell) (ws : List WriteRecord) : List Host.Cell :=
  ws.foldl (fun m r => Memory.write m r.addr.toNat r.value) m

/-! ### Emit, EndFrame, ReadPCM (R14) -/

/-- `Emit(addr, value)` (R14): append `(t, addr, value)` to the block's write list, where the k-th write of a block
carries `t = k × WRITE_STEP` (R338), and hand it to the core, which consumes it at the next `EndFrame`. -/
def Instance.emit (cfg : Config) (a : Addr) (v : Byte) (I : Instance) : Instance :=
  let r : WriteRecord := ⟨I.writes.length * cfg.writeStep, a, v⟩
  { I with writes := I.writes ++ [r], core := { I.core with enqueued := I.core.enqueued ++ [r] } }

/-- Emitting a list of writes in list order (R345). -/
def Instance.emitAll (cfg : Config) (ws : List (Addr × Byte)) (I : Instance) : Instance :=
  ws.foldl (fun I w => I.emit cfg w.1 w.2) I

/-- `EndFrame(c)` (R337, R340 (a)): the core applies every write handed to it, in order, and runs `c` cycles. -/
def Instance.endFrame (c : Nat) (I : Instance) : Instance :=
  { I with core := {
      inner := Config.coreEndFrame I.chip I.core.inner I.core.enqueued c
      enqueued := []
      regs := Memory.apply I.core.regs I.core.enqueued
      cycles := I.core.cycles + c } }

/-- The core after a `ReadPCM`: only its own state changes (R341). -/
def Instance.setInner (n : Nat) (I : Instance) : Instance :=
  { I with core := { I.core with inner := n } }

/-- `ReadPCM(n)` (R340 (b), R341) as pairs (left, right): at most `n` frames, in the core's native integers; the NES
core's mono frame is duplicated to both sides (R342). -/
def Instance.readPcm (n : Nat) (I : Instance) : List (Int × Int) × Instance :=
  match I.chip with
  | .nes =>
    let r := Config.coreReadMono I.core.inner n
    ((r.1.take n).map (fun x => (x, x)), I.setInner r.2)
  | .gb =>
    let r := Config.coreReadStereo I.core.inner n
    (r.1.take n, I.setInner r.2)

/-- A buffer of `n` zero samples (R343, R403). -/
def silence (n : Nat) : List Sample := List.replicate n 0

/-! ### The voice pool (R54) -/

/-- The slot indices 0..POOL_SIZE-1 in increasing order. -/
def Instance.slots (I : Instance) : List Nat := List.range I.voices.length

/-- The channel indices 0..N_CHANNELS-1 in increasing order (log entry 5). -/
def channels (cfg : Config) : List (Fin 4) := [0, 1, 2, 3].filter fun c => decide (c.val < cfg.nChannels)

/-- What `V[s]` stands for where `s` is no slot: no rule reads it, and it is an inactive voice. -/
def Voice.absent : Voice where
  active := false
  note := 0
  velocity := 0
  channel := 0
  age := 0
  triggered := false
  env := { level := 0, stage := .idle, aRate := 1, dRate := 1, rRate := 1, sLevel := 0 }
  penv := 0

/-- `V[s]`. -/
def Instance.voice (I : Instance) (s : Nat) : Voice := I.voices.getD s Voice.absent

/-- `V[s] <- v`. -/
def Instance.setVoice (s : Nat) (v : Voice) (I : Instance) : Instance :=
  { I with voices := I.voices.set s v }

/-- Every `V[s]` replaced by `f V[s]`: a loop over the slots whose passes do not touch each other's slot. -/
def Instance.mapVoices (f : Voice → Voice) (I : Instance) : Instance :=
  { I with voices := I.voices.map f }

/-! ### From a command to an outcome -/

/-- A command that acts on the instance and has no effect on ⊥ (R31, R360). -/
def onInstance (f : Config → Instance → Instance) (s : State) : Host.Outcome State Fault Refusal :=
  match s.inst with
  | none => .next s
  | some I => .next { s with inst := some (f s.cfg I) }

/-- A register-write record as an instruction of its own: `Emit` of its address and value (R14, R123; log entry 12);
without an instance there is no core to write to (R31, R403). -/
def emitRecord (a : Addr) (v : Byte) (s : State) : Host.Outcome State Fault Refusal :=
  onInstance (fun cfg I => I.emit cfg a v) s

end Sys2Proof.Machine
end

