-- ==== Sys2Proof/Machine/Operands.lean ====
section
/-! DEFINITION. The arithmetic primitives of R12, the operand assembly of R122, the note transform of R361 and the
parameter file's fields, ranges and clamps (R33, R372). -/

namespace Sys2Proof.Machine

/-! ### Arithmetic primitives (R12) -/

/-- `clamp(x, lo, hi) = min(hi, max(lo, x))`. -/
def clamp (x lo hi : Int) : Int := min hi (max lo x)

/-- `RND(x) = floor(x + 1/2)`: round to nearest, halves upward. -/
def rnd (x : Rat) : Int := ⌊x + 1 / 2⌋

/-- The low 8 bits of a number. -/
def byte (n : Nat) : Byte := BitVec.ofNat 8 n

/-- `p[7:0]` of an 11-bit period or frequency value (R87). -/
def lowByte (p : Nat) : Byte := byte (p % 256)

/-- `p[10:8]` of an 11-bit period or frequency value (R87). -/
def highBits (p : Nat) : Nat := p / 256 % 8

/-! ### Command operands (R122, R361) -/

/-- A signed 16-bit parameter value, `sext_16` (R122). -/
def paramValue (v : BitVec 16) : Int := v.toInt

/-- `XNOTE(n) = clamp(n + 12 × P.octave, 0, 127)` (R361). -/
def xnote (P : Params) (n : Nat) : Nat := (clamp (n + 12 * P.octave) 0 127).toNat

/-- The semitones of a 14-bit bend value: `BEND_RANGE × (b - 8192) / 8192` (R368). -/
def bendSemitones (cfg : Config) (b : Nat) : Rat := (cfg.bendRange : Rat) * ((b : Rat) - 8192) / 8192

/-- The vibrato depth a mod-wheel value sets under `setVibratoDepth`: `RND(x × 100 / 127)` (R365). -/
def modWheelDepth (x : Nat) : Nat := (rnd ((x : Rat) * 100 / 127)).toNat

/-! ### The parameter file (R33) -/

/-- The code of a chip (R33 id 0). -/
def chipCode : Chip → Int
  | .nes => 0
  | .gb => 1

/-- The chip of a code that was clamped to 0..1 (R373). -/
def chipOfCode (c : Int) : Chip := if c = 0 then .nes else .gb

/-- The code of an allocation mode (R33 id 15). -/
def modeCode : AllocMode → Int
  | .lead => 0
  | .locked => 1
  | .auto => 2

/-- The allocation mode of a code that was clamped to 0..2. -/
def modeOfCode (c : Int) : AllocMode := if c = 0 then .lead else if c = 1 then .locked else .auto

/-- The range column of R33, fields 1..17: lowest and highest value. -/
def paramRange (cfg : Config) (id : Nat) : Int × Int :=
  match id with
  | 1 => (0, 3)
  | 2 => (0, 15)
  | 3 => (0, 15)
  | 4 => (0, 15)
  | 5 => (0, 15)
  | 6 => (0, 127)
  | 7 => (0, 100)
  | 8 => (0, 20)
  | 9 => (0, 1)
  | 10 => (0, (cfg.wavetables.length : Int) - 1)
  | 11 => (0, 15)
  | 12 => (0, 100)
  | 13 => (0, 15)
  | 14 => (-3, 3)
  | 15 => (0, 2)
  | 16 => (-24, 24)
  | 17 => (0, 15)
  | _ => (0, 0)

/-- `CLAMPP(id, value)` (R372). -/
def clampParam (cfg : Config) (id : Nat) (v : Int) : Int :=
  clamp v (paramRange cfg id).1 (paramRange cfg id).2

/-- `field(id)`, fields 1..17 (R33). -/
def paramField (P : Params) (id : Nat) : Int :=
  match id with
  | 1 => P.duty
  | 2 => P.attack
  | 3 => P.decay
  | 4 => P.sustain
  | 5 => P.release
  | 6 => P.sweep
  | 7 => P.vibDepth
  | 8 => P.vibRate
  | 9 => P.noiseMode
  | 10 => P.wavetable
  | 11 => P.mask
  | 12 => P.detune
  | 13 => P.volume
  | 14 => P.octave
  | 15 => modeCode P.mode
  | 16 => P.penvDepth
  | 17 => P.penvSpeed
  | _ => 0

/-- `field(id) <- v`, fields 1..17 (R33), for a value already clamped. -/
def setParamField (id : Nat) (v : Int) (P : Params) : Params :=
  match id with
  | 1 => { P with duty := v.toNat }
  | 2 => { P with attack := v.toNat }
  | 3 => { P with decay := v.toNat }
  | 4 => { P with sustain := v.toNat }
  | 5 => { P with release := v.toNat }
  | 6 => { P with sweep := v.toNat }
  | 7 => { P with vibDepth := v.toNat }
  | 8 => { P with vibRate := v.toNat }
  | 9 => { P with noiseMode := v.toNat }
  | 10 => { P with wavetable := v.toNat }
  | 11 => { P with mask := v.toNat }
  | 12 => { P with detune := v.toNat }
  | 13 => { P with volume := v.toNat }
  | 14 => { P with octave := v }
  | 15 => { P with mode := modeOfCode v }
  | 16 => { P with penvDepth := v }
  | 17 => { P with penvSpeed := v.toNat }
  | _ => P

/-- The ids of the fields a preset loads (R374). -/
def presetIds : List Nat := [1, 2, 3, 4, 5, 6, 7, 8, 9, 10, 11, 12, 13, 14, 15, 16, 17]

/-- `for every id in 1..17: field(id) <- CLAMPP(id, PRESETS(p).field(id))` (R374). -/
def loadPreset (cfg : Config) (preset P : Params) : Params :=
  presetIds.foldl (fun P id => setParamField id (clampParam cfg id (paramField preset id)) P) P

end Sys2Proof.Machine
end

