-- ==== Sys2Proof/Machine/Flags.lean ====
section
/-! DEFINITION. The block's flags (R64: `active` and `triggered` per voice, `initPending` per instance; there are no
condition codes), the predicates over them (R230), the channel types (R65) and DEACTIVATE (R242). -/

namespace Sys2Proof.Machine

/-- The channel types (R65). -/
inductive ChannelType where
  | pulse1
  | pulse2
  | triangle
  | wave
  | noise
deriving DecidableEq, Repr

/-- `chanType(chip, channel)` (R65). -/
def chanType (chip : Chip) (c : Fin 4) : ChannelType :=
  match c with
  | 0 => .pulse1
  | 1 => .pulse2
  | 2 => (match chip with
    | .nes => .triangle
    | .gb => .wave)
  | 3 => .noise

/-- `enabled(c)` (R230): bit c of the channel mask, of a channel there is. -/
def enabled (cfg : Config) (P : Params) (c : Fin 4) : Bool := decide (c.val < cfg.nChannels) && P.mask.testBit c

/-- `(P.mask & 0xF) = 0`: no channel is enabled (R234, R236). -/
def maskEmpty (cfg : Config) (P : Params) : Bool := !(channels cfg).any (enabled cfg P)

/-- `(P.mask & 0x3) = 0x3`: both pulse or square channels are enabled (R207, R238). -/
def bothPulses (cfg : Config) (P : Params) : Bool := enabled cfg P 0 && enabled cfg P 1

/-- `busy(c)` (R230): an active voice has the channel. -/
def Instance.busy (I : Instance) (c : Fin 4) : Bool :=
  I.slots.any fun s => (I.voice s).active && (I.voice s).channel == c

/-- `free(c)` (R230): enabled and not busy. -/
def Instance.free (cfg : Config) (I : Instance) (c : Fin 4) : Bool := enabled cfg I.params c && !I.busy c

/-- Some voice is active (R343). -/
def Instance.anyActive (I : Instance) : Bool := I.slots.any fun s => (I.voice s).active

/-- The voice with `active <- false` and no other field written (R55, R242). -/
def Voice.deactivate (v : Voice) : Voice := { v with active := false }

/-- DEACTIVATE(s) (R242). -/
def Instance.deactivate (s : Nat) (I : Instance) : Instance := I.setVoice s (I.voice s).deactivate

/-- DEACTIVATE(s) for every slot (R238 step 1, R373). -/
def Instance.deactivateAll (I : Instance) : Instance := I.mapVoices Voice.deactivate

end Sys2Proof.Machine
end

