-- ==== Sys2Proof/Machine/Envelopes.lean ====
section
/-! DEFINITION. The envelope generator (40_envelope.md): rates, configuration, gates and the per-sample step. -/

namespace Sys2Proof.Machine

/-- ENV_RATE(param, div) (R160): 1 for parameter 0 ("instant"), else `1 / (param × (SR / div))`. -/
def envRate (cfg : Config) (param div : Nat) : Rat :=
  if param = 0 then 1 else 1 / ((param : Rat) * ((cfg.sr : Rat) / (div : Rat)))

/-- ENV_CONFIGURE(e, P) (R162): rates and sustain level; level and stage are not written. -/
def Envelope.configure (cfg : Config) (P : Params) (e : Envelope) : Envelope :=
  { e with
    aRate := envRate cfg P.attack cfg.attackDiv
    dRate := envRate cfg P.decay cfg.drDiv
    rRate := envRate cfg P.release cfg.drDiv
    sLevel := (P.sustain : Rat) / 15 }

/-- ENV_GATE_ON(e) (R163): the level is not written. -/
def Envelope.gateOn (e : Envelope) : Envelope := { e with stage := .attack }

/-- ENV_GATE_OFF(e) (R164): to Release from any stage but Idle; the level is not written. -/
def Envelope.gateOff (e : Envelope) : Envelope :=
  if e.stage = .idle then e else { e with stage := .release }

/-- The Attack step (R166). -/
def Envelope.attackStep (e : Envelope) : Envelope :=
  let l := e.level + e.aRate
  if 1 ≤ l then { e with level := 1, stage := .decay } else { e with level := l }

/-- The Decay step (R167). -/
def Envelope.decayStep (e : Envelope) : Envelope :=
  let l := e.level - e.dRate
  if l ≤ e.sLevel then { e with level := e.sLevel, stage := if 0 < e.sLevel then .sustain else .idle }
  else { e with level := l }

/-- The Release step (R169). -/
def Envelope.releaseStep (e : Envelope) : Envelope :=
  let l := e.level - e.rRate
  if l ≤ 0 then { e with level := 0, stage := .idle } else { e with level := l }

/-- ENV_STEP(e) (R165): exactly one stage rule per sample; Sustain holds (R168), Idle forces level 0 (R170). -/
def Envelope.step (e : Envelope) : Envelope :=
  match e.stage with
  | .attack => e.attackStep
  | .decay => e.decayStep
  | .sustain => e
  | .release => e.releaseStep
  | .idle => { e with level := 0 }

/-- ENV_ADVANCE(e, n) (R171). -/
def Envelope.advance : Nat → Envelope → Envelope
  | 0, e => e
  | n + 1, e => Envelope.advance n e.step

/-- The envelope of every slot after creation (R56, R440): level 0, Idle, rates and sustain level of the default
parameters. -/
def Envelope.created (cfg : Config) : Envelope :=
  Envelope.configure cfg defaultParams
    { level := 0, stage := .idle, aRate := 1, dRate := 1, rRate := 1, sLevel := 0 }

end Sys2Proof.Machine
end

