-- ==== Sys2Proof/Machine/Reals.lean ====
section
/-! DEFINITION. The configuration functions EXP2 and SIN2PI (R12), which a model may take "as exact real functions or
as a named approximation": a configuration takes the named approximation or any other function. The approximations
here are Taylor polynomials over ℚ, evaluated exactly: 2^x agrees with the real function exactly at every integer x
and otherwise to a relative error below 2^-100, sin(2πx) exactly at every multiple of 1/4 and otherwise to an error
below 2^-60 (log entries 8 and 9). -/

namespace Sys2Proof.Machine

/-- ln 2 to 50 decimals. -/
def ln2 : Rat := 69314718055994530941723212145817656807550013436026 / 10 ^ 50

/-- π to 50 decimals. -/
def pi : Rat := 314159265358979323846264338327950288419716939937511 / 10 ^ 50

/-- `1 + t/(1) (1 + t/2 (… (1 + t/k acc)))`: with `acc = 1` the Taylor polynomial of degree k of e^t. -/
def expPoly (t : Rat) : Nat → Rat → Rat
  | 0, acc => acc
  | k + 1, acc => expPoly t k (1 + t * acc / ((k + 1 : Nat) : Rat))

/-- The named approximation of EXP2: `2^⌊x⌋ · e^((x - ⌊x⌋) ln 2)`, the second factor by its Taylor polynomial of
degree 33. -/
def exp2Approx (x : Rat) : Rat :=
  expPoly ((x - (⌊x⌋ : Int)) * ln2) 33 1 * (2 : Rat) ^ (⌊x⌋ : Int)

/-- `1 - y/(d(d+1)) (1 - y/((d+2)(d+3)) (…))`, k factors from the innermost: with `d = 2` and `y = θ²` the Taylor
polynomial of `sin θ / θ`, with `d = 1` that of `cos θ`. -/
def trigPoly (y : Rat) (d : Nat) : Nat → Rat → Rat
  | 0, acc => acc
  | k + 1, acc => trigPoly y d k (1 - y * acc / (((d + 2 * k) * (d + 2 * k + 1) : Nat) : Rat))

/-- `sin(2πu)` for `0 ≤ u ≤ 1/4`: the sine's polynomial up to 1/8, the complement's cosine above. -/
def sinQuarter (u : Rat) : Rat :=
  if u ≤ 1 / 8 then
    let θ := 2 * pi * u
    θ * trigPoly (θ * θ) 2 18 1
  else
    let θ := 2 * pi * (1 / 4 - u)
    trigPoly (θ * θ) 1 18 1

/-- The named approximation of SIN2PI: reduction to a quarter turn. -/
def sin2piApprox (x : Rat) : Rat :=
  let r := x - (⌊x⌋ : Int)
  if r ≤ 1 / 4 then sinQuarter r
  else if r ≤ 1 / 2 then sinQuarter (1 / 2 - r)
  else if r ≤ 3 / 4 then -sinQuarter (r - 1 / 2)
  else -sinQuarter (1 - r)

/-- EXP2 (R12): the function the configuration takes. -/
def exp2 (cfg : Config) (x : Rat) : Rat :=
  match cfg.exp2 with
  | .approximation => exp2Approx x
  | .given k => Config.realFunction k x

/-- SIN2PI (R12): the function the configuration takes. -/
def sin2pi (cfg : Config) (x : Rat) : Rat :=
  match cfg.sin2pi with
  | .approximation => sin2piApprox x
  | .given k => Config.realFunction k x

end Sys2Proof.Machine
end

