-- ==== Sys2Proof/Machine/Pitch.lean ====
section
/-! DEFINITION. The pitch modulator (41_pitch.md). -/

namespace Sys2Proof.Machine

/-- noteFreq(n) (R200): `A4_HZ × EXP2((n - A4_NOTE) / 12)`. -/
def noteFreq (cfg : Config) (n : Nat) : Rat :=
  (cfg.a4Hz : Rat) * exp2 cfg (((n : Rat) - (cfg.a4Note : Rat)) / 12)

/-- bendMul (R201). -/
def bendMul (cfg : Config) (I : Instance) : Rat := exp2 cfg (I.bend / 12)

/-- penvMul(V) (R202). -/
def penvMul (cfg : Config) (v : Voice) : Rat := exp2 cfg (v.penv / 12)

/-- PENV_INIT(V) (R203): the value of `penv` at allocation. -/
def penvInit (P : Params) : Rat := (P.penvDepth : Rat)

/-- PENV_DECAY(V, frames) (R204), on the level: toward 0 by `|depth| × PENV_DIV / (speed × SR)` per sample, never
across 0; speed 0 holds. -/
def penvDecay (cfg : Config) (P : Params) (frames : Nat) (penv : Rat) : Rat :=
  if P.penvSpeed = 0 then penv
  else
    let rate : Rat := ((P.penvDepth.natAbs : Rat) * cfg.penvDiv) / ((P.penvSpeed : Rat) * cfg.sr)
    let delta := rate * frames
    if 0 < penv then max 0 (penv - delta)
    else if penv < 0 then min 0 (penv + delta)
    else penv

/-- vibMul (R205): active only if depth and rate are above 0. -/
def vibMul (cfg : Config) (I : Instance) : Rat :=
  if 0 < I.params.vibDepth ∧ 0 < I.params.vibRate then
    exp2 cfg (sin2pi cfg I.lfoPhase * (I.params.vibDepth : Rat) / 1200)
  else 1

/-- The phase after LFO_ADVANCE(frames) (R206): `phase + rate × frames / SR`, wrapped into [0, 1). -/
def lfoAdvance (cfg : Config) (P : Params) (frames : Nat) (phase : Rat) : Rat :=
  let x := phase + (P.vibRate : Rat) * frames / cfg.sr
  x - (⌊x⌋ : Int)

/-- detuneMul(V) (R207): channel 1 under a mask with both pulses enabled. -/
def detuneMul (cfg : Config) (P : Params) (v : Voice) : Rat :=
  if v.channel = 1 ∧ bothPulses cfg P then exp2 cfg ((P.detune : Rat) / 1200) else 1

/-- PITCH(V) (R208). -/
def pitch (cfg : Config) (I : Instance) (v : Voice) : Rat :=
  noteFreq cfg v.note * bendMul cfg I * penvMul cfg v * vibMul cfg I * detuneMul cfg I.params v

end Sys2Proof.Machine
end

