-- ==== Sys2Proof/Machine/Allocator.lean ====
section
/-! DEFINITION. The voice allocator (42_allocator.md). Slots and channels are scanned in increasing index. -/

namespace Sys2Proof.Machine

/-- The better of a candidate found so far and slot `s` for `oldest`: `s` only with a strictly smaller age. -/
def Instance.older (I : Instance) (best : Option Nat) (s : Nat) : Option Nat :=
  match best with
  | none => some s
  | some b => if (I.voice s).age < (I.voice b).age then some s else some b

/-- oldest(S) (R231) for the set S of slots that satisfy `p`: the smallest age, the lower slot on a tie; none for
an empty S. -/
def Instance.oldest (I : Instance) (p : Voice → Bool) : Option Nat :=
  I.slots.foldl (fun best s => if p (I.voice s) then I.older best s else best) none

/-- The least inactive slot. -/
def Instance.freeSlot (I : Instance) : Option Nat := I.slots.find? fun s => !(I.voice s).active

/-- SLOT_SELECT() (R233): the least inactive slot, else the slot of the globally oldest voice, deactivated. The
0 stands for a pool without any slot, which `Config.wf` excludes. -/
def Instance.slotSelect (I : Instance) : Nat × Instance :=
  match I.freeSlot with
  | some s => (s, I)
  | none =>
    let s := (I.oldest fun _ => true).getD 0
    (s, I.deactivate s)

/-- A channel steal (R235, R236): the oldest voice of a set gives up its channel. -/
def Instance.stealChannel (I : Instance) (p : Voice → Bool) : Option (Fin 4 × Instance) :=
  (I.oldest p).map fun v => ((I.voice v).channel, I.deactivate v)

/-- CHANNEL_SELECT_LEAD(n) (R234): the lowest enabled channel. -/
def Instance.channelSelectLead (cfg : Config) (I : Instance) : Option (Fin 4 × Instance) :=
  ((channels cfg).find? (enabled cfg I.params)).map fun c => (c, I)

/-- CHANNEL_SELECT_LOCKED(n) (R235): the least free channel, else the channel of the oldest voice among those on
enabled channels, deactivated. -/
def Instance.channelSelectLocked (cfg : Config) (I : Instance) : Option (Fin 4 × Instance) :=
  if maskEmpty cfg I.params then none
  else
    match (channels cfg).find? (I.free cfg) with
    | some c => some (c, I)
    | none => I.stealChannel fun v => v.active && enabled cfg I.params v.channel

/-- CHANNEL_SELECT_AUTO(n) (R236): noise first for a high note, then the least free channel, else the channel of the
globally oldest active voice, deactivated. -/
def Instance.channelSelectAuto (cfg : Config) (n : Nat) (I : Instance) : Option (Fin 4 × Instance) :=
  if maskEmpty cfg I.params then none
  else if cfg.highNote < n ∧ I.free cfg 3 then some (3, I)
  else
    match (channels cfg).find? (I.free cfg) with
    | some c => some (c, I)
    | none => I.stealChannel fun v => v.active

/-- VOICE_INIT(s, n, v, c) (R237) with STAMP() (R232): the age counter is incremented and its new value stamped. -/
def Instance.voiceInit (cfg : Config) (s : Nat) (n v : Nat) (c : Fin 4) (I : Instance) : Instance :=
  { I.setVoice s {
      active := true
      note := n
      velocity := v
      channel := c
      age := I.ageCounter + 1
      triggered := false
      env := ((I.voice s).env.configure cfg I.params).gateOn
      penv := penvInit I.params } with
    ageCounter := I.ageCounter + 1 }

/-- A voice that loses channel 1 to a unison double (R239). -/
def Voice.leaveChannel1 (v : Voice) : Voice := if v.active && v.channel == 1 then v.deactivate else v

/-- AUTO_UNISON(n, v) (R239): a double on channel 1, only if a slot is inactive; the slot is chosen before channel 1
is cleared. -/
def Instance.autoUnison (cfg : Config) (n v : Nat) (I : Instance) : Instance :=
  match I.freeSlot with
  | none => I
  | some s2 => (I.mapVoices Voice.leaveChannel1).voiceInit cfg s2 n v 1

/-- The conditions of R238 step 5. -/
def unisonWanted (cfg : Config) (P : Params) (c : Fin 4) : Bool :=
  P.mode != .lead && decide (0 < P.detune) && bothPulses cfg P && c == 0

/-- The channel selector of the mode in force (R238 step 2). -/
def Instance.channelSelect (cfg : Config) (n : Nat) (I : Instance) : Option (Fin 4 × Instance) :=
  match I.params.mode with
  | .lead => I.channelSelectLead cfg
  | .locked => I.channelSelectLocked cfg
  | .auto => I.channelSelectAuto cfg n

/-- Step 1 of R238: in Lead mode every voice is deactivated. -/
def Instance.leadClear (I : Instance) : Instance :=
  if I.params.mode = .lead then I.deactivateAll else I

/-- NOTE_ON_ALLOC(n, v) (R238). -/
def Instance.noteOnAlloc (cfg : Config) (n v : Nat) (I : Instance) : Instance :=
  match I.leadClear.channelSelect cfg n with
  | none => I.leadClear
  | some (c, J) =>
    let K := J.slotSelect.2.voiceInit cfg J.slotSelect.1 n v c
    if unisonWanted cfg I.params c then K.autoUnison cfg n v else K

/-- Gate-off and deactivation (R240, R241). -/
def Voice.release (v : Voice) : Voice := { v with env := v.env.gateOff, active := false }

/-- NOTE_OFF_RELEASE(n) (R240): every active voice of note n. -/
def Instance.noteOffRelease (n : Nat) (I : Instance) : Instance :=
  I.mapVoices fun v => if v.active && v.note == n then v.release else v

/-- ALL_VOICES_OFF() (R241). -/
def Instance.allVoicesOff (I : Instance) : Instance :=
  I.mapVoices fun v => if v.active then v.release else v

end Sys2Proof.Machine
end

