-- ==== Sys2Proof/Machine/EncoderNes.lean ====
section
/-! DEFINITION. The NES channel encoder (43_encoder_nes.md): stateless functions from a voice's (frequency, volume,
channel, trigger flag) and the parameters to a list of (address, value) writes. -/

namespace Sys2Proof.Machine

/-- `base(c) = $4000 + 4·c` (R270). -/
def nesBase (c : Fin 4) : Addr := 0x4000 + BitVec.ofNat 16 (4 * c)

/-- pulsePeriod(f) (R271). -/
def pulsePeriod (cfg : Config) (f : Rat) : Nat :=
  (clamp (rnd ((cfg.nesClock : Rat) / (16 * f) - 1)) 0 0x7FF).toNat

/-- triPeriod(f) (R271). -/
def triPeriod (cfg : Config) (f : Rat) : Nat :=
  (clamp (rnd ((cfg.nesClock : Rat) / (32 * f) - 1)) 0 0x7FF).toNat

/-- Duty, length halt, constant volume, volume (R124, R272). -/
def nesPulseCtrl (P : Params) (q : Nat) : Byte := byte ((P.duty <<< 6) ||| 0x30 ||| q)

/-- Length index 1 with the period's high bits (R124, R272, R274). -/
def nesLengthHigh (p : Nat) : Byte := byte (0x08 ||| highBits p)

/-- ENC_NES_PULSE: the trigger block (R272) and a later block (R273). -/
def encNesPulse (cfg : Config) (P : Params) (c : Fin 4) (f : Rat) (q : Nat) (trig : Bool) : List (Addr × Byte) :=
  let b := nesBase c
  let p := pulsePeriod cfg f
  if trig then
    [(b, nesPulseCtrl P q), (b + 1, 0x08), (b + 2, lowByte p), (b + 3, nesLengthHigh p)]
  else
    [(b, nesPulseCtrl P q), (b + 2, lowByte p)]

/-- ENC_NES_TRI: the trigger block (R274) and a later block (R275). The volume is not used. -/
def encNesTri (cfg : Config) (f : Rat) (trig : Bool) : List (Addr × Byte) :=
  let p := triPeriod cfg f
  if trig then
    [(0x4008, 0xFF), (0x400A, lowByte p), (0x400B, nesLengthHigh p)]
  else
    [(0x400A, lowByte p)]

/-- nesNoiseIndex(n) (R276). -/
def nesNoiseIndex (cfg : Config) (n : Nat) : Nat := cfg.nesNoise.getD n 0

/-- Length halt, constant volume, volume of the noise channel (R277). -/
def nesNoiseCtrl (q : Nat) : Byte := byte (0x30 ||| q)

/-- Mode bit and period index of the noise channel (R277). -/
def nesNoiseMode (cfg : Config) (P : Params) (n : Nat) : Byte :=
  byte ((P.noiseMode <<< 7) ||| nesNoiseIndex cfg n)

/-- ENC_NES_NOISE: the trigger block (R277) and a later block (R278). The frequency is not used (R209). -/
def encNesNoise (cfg : Config) (P : Params) (n q : Nat) (trig : Bool) : List (Addr × Byte) :=
  if trig then
    [(0x400C, nesNoiseCtrl q), (0x400E, nesNoiseMode cfg P n), (0x400F, 0x08)]
  else
    [(0x400C, nesNoiseCtrl q), (0x400E, nesNoiseMode cfg P n)]

/-- SILENCE_NES(c) (R279). -/
def silenceNes (P : Params) (c : Fin 4) : List (Addr × Byte) :=
  match c with
  | 0 => [(0x4000, nesPulseCtrl P 0)]
  | 1 => [(0x4004, nesPulseCtrl P 0)]
  | 2 => [(0x4008, 0x00)]
  | 3 => [(0x400C, 0x30)]

/-- NES_INIT (R280). -/
def nesInit : List (Addr × Byte) := [(0x4015, 0x0F), (0x4017, 0x40)]

/-- ENC_NES(V, f, q, trig) (R281). -/
def encNes (cfg : Config) (P : Params) (v : Voice) (f : Rat) (q : Nat) (trig : Bool) : List (Addr × Byte) :=
  match v.channel with
  | 0 => encNesPulse cfg P 0 f q trig
  | 1 => encNesPulse cfg P 1 f q trig
  | 2 => encNesTri cfg f trig
  | 3 => encNesNoise cfg P v.note q trig

end Sys2Proof.Machine
end

