-- ==== Sys2Proof/Machine/EncoderGb.lean ====
section
/-! DEFINITION. The Game Boy channel encoder (44_encoder_gb.md), of the same shape as the NES encoder. -/

namespace Sys2Proof.Machine

/-- sqFreq(f) (R301). -/
def sqFreq (cfg : Config) (f : Rat) : Nat :=
  (clamp (rnd (2048 - (cfg.gbClock : Rat) / 32 / f)) 0 2047).toNat

/-- waveFreq(f) (R301). -/
def waveFreq (cfg : Config) (f : Rat) : Nat :=
  (clamp (rnd (2048 - (cfg.gbClock : Rat) / 64 / f)) 0 2047).toNat

/-- The registers r1..r4 of a square channel (R300): NR11..NR14 or NR21..NR24. -/
def gbSquareBase (c : Fin 4) : Addr := if c = 0 then 0xFF11 else 0xFF16

/-- Initial volume q, envelope disabled (R125, R302). -/
def gbVolume (q : Nat) : Byte := byte (q <<< 4)

/-- Trigger, length disabled, frequency high bits (R125, R302). -/
def gbTriggerHigh (x : Nat) : Byte := byte (0x80 ||| highBits x)

/-- ENC_GB_SQUARE: the trigger block (R302) and a later block (R303). The sweep register NR10 belongs to square 1. -/
def encGbSquare (cfg : Config) (P : Params) (c : Fin 4) (f : Rat) (q : Nat) (trig : Bool) : List (Addr × Byte) :=
  let r1 := gbSquareBase c
  let x := sqFreq cfg f
  if trig then
    (if c = 0 then [((0xFF10 : Addr), byte (P.sweep &&& 0x7F))] else []) ++
      [(r1, byte (P.duty <<< 6)), (r1 + 1, gbVolume q), (r1 + 2, lowByte x), (r1 + 3, gbTriggerHigh x)]
  else
    [(r1 + 1, gbVolume q), (r1 + 2, lowByte x)]

/-- waveCode(q) (R304). -/
def waveCode (q : Nat) : Nat :=
  if q = 0 then 0 else if q ≤ 4 then 3 else if q ≤ 9 then 2 else 1

/-- The NR32 output level of volume q (R305). -/
def gbWaveLevel (q : Nat) : Byte := byte (waveCode q <<< 5)

/-- `WAVETABLES[P.wavetable]` (R39, R305); 16 zero bytes for an index outside the table, which no clamped parameter
is (R372). -/
def wavetable (cfg : Config) (P : Params) : Vector Byte 16 :=
  cfg.wavetables.getD P.wavetable (Vector.replicate 16 0)

/-- The 16 writes of a wave RAM image to `$FF30`..`$FF3F` (R305). -/
def waveRamWrites (w : Vector Byte 16) : List (Addr × Byte) :=
  [(0xFF30, w[0]), (0xFF31, w[1]), (0xFF32, w[2]), (0xFF33, w[3]),
   (0xFF34, w[4]), (0xFF35, w[5]), (0xFF36, w[6]), (0xFF37, w[7]),
   (0xFF38, w[8]), (0xFF39, w[9]), (0xFF3A, w[10]), (0xFF3B, w[11]),
   (0xFF3C, w[12]), (0xFF3D, w[13]), (0xFF3E, w[14]), (0xFF3F, w[15])]

/-- ENC_GB_WAVE: the trigger block (R305) and a later block (R306). -/
def encGbWave (cfg : Config) (P : Params) (f : Rat) (q : Nat) (trig : Bool) : List (Addr × Byte) :=
  let x := waveFreq cfg f
  if trig then
    [((0xFF1A : Addr), (0x00 : Byte))] ++ waveRamWrites (wavetable cfg P) ++
      [(0xFF1A, 0x80), (0xFF1B, 0x00), (0xFF1C, gbWaveLevel q), (0xFF1D, lowByte x), (0xFF1E, gbTriggerHigh x)]
  else
    [(0xFF1C, gbWaveLevel q), (0xFF1D, lowByte x)]

/-- gbNoiseByte(n) (R307): the table's byte with bit 3 replaced by `P.noiseMode`. -/
def gbNoiseByte (cfg : Config) (P : Params) (n : Nat) : Byte :=
  (cfg.gbNoise.getD n 0 &&& 0xF7) ||| byte ((P.noiseMode % 2) <<< 3)

/-- ENC_GB_NOISE: the trigger block (R309) and a later block (R310). The frequency is not used (R209). -/
def encGbNoise (cfg : Config) (P : Params) (n q : Nat) (trig : Bool) : List (Addr × Byte) :=
  if trig then
    [(0xFF20, 0x00), (0xFF21, gbVolume q), (0xFF22, gbNoiseByte cfg P n), (0xFF23, 0x80)]
  else
    [(0xFF21, gbVolume q), (0xFF22, gbNoiseByte cfg P n)]

/-- SILENCE_GB(c) (R311). -/
def silenceGb (c : Fin 4) : List (Addr × Byte) :=
  match c with
  | 0 => [(0xFF12, 0x00)]
  | 1 => [(0xFF17, 0x00)]
  | 2 => [(0xFF1A, 0x00)]
  | 3 => [(0xFF21, 0x00)]

/-- GB_INIT (R312). -/
def gbInit : List (Addr × Byte) := [(0xFF26, 0x80), (0xFF24, 0x77), (0xFF25, 0xFF)]

/-- ENC_GB(V, f, q, trig) (R313). -/
def encGb (cfg : Config) (P : Params) (v : Voice) (f : Rat) (q : Nat) (trig : Bool) : List (Addr × Byte) :=
  match v.channel with
  | 0 => encGbSquare cfg P 0 f q trig
  | 1 => encGbSquare cfg P 1 f q trig
  | 2 => encGbWave cfg P f q trig
  | 3 => encGbNoise cfg P v.note q trig

end Sys2Proof.Machine
end

