-- ==== Sys2Proof/Machine/Renderer.lean ====
section
/-! DEFINITION. The block renderer (45_renderer.md): RENDER_BLOCK step by step. The parameter vector read by every
step is the one in force when the command begins (R331): no step writes it. -/

namespace Sys2Proof.Machine

/-- The init prefix of a chip (R280, R312, R443). -/
def initWrites : Chip → List (Addr × Byte)
  | .nes => nesInit
  | .gb => gbInit

/-- SILENCE(chip, c) (R279, R311). -/
def silenceWrites (chip : Chip) (P : Params) (c : Fin 4) : List (Addr × Byte) :=
  match chip with
  | .nes => silenceNes P c
  | .gb => silenceGb c

/-- QVOL(L, vol, vel) (R334). -/
def qvol (l : Rat) (vol vel : Nat) : Nat :=
  (clamp ⌊l * ((vol : Rat) / 15) * ((vel : Rat) / 127) * 15⌋ 0 15).toNat

/-- BUDGET(chip) (R339): `RND(FPB × clock(chip) / SR)`. -/
def budget (cfg : Config) (chip : Chip) : Nat :=
  let clock := match chip with
    | .nes => cfg.nesClock
    | .gb => cfg.gbClock
  (rnd ((cfg.fpb : Rat) * (clock : Rat) / (cfg.sr : Rat))).toNat

/-- Step 1 (R330, R331): a new write list, with the init prefix at its head if it is pending. -/
def Instance.renderStart (cfg : Config) (I : Instance) : Instance :=
  let J := { I with writes := [] }
  if I.initPending then { J.emitAll cfg (initWrites I.chip) with initPending := false } else J

/-- Step 2 on one voice (R332): advance an active voice's envelope over the block and retire the voice if the stage
became Idle. An inactive voice is not touched. -/
def Voice.advance (frames : Nat) (v : Voice) : Voice :=
  if v.active then
    let e := v.env.advance frames
    { v with env := e, active := e.stage != .idle }
  else v

/-- The silence writes of step 2 (R332), by slot: `I` before the advance, `J` after it. -/
def retireWrites (I J : Instance) : List (Addr × Byte) :=
  I.slots.flatMap fun s =>
    if (I.voice s).active && !(J.voice s).active then silenceWrites I.chip I.params (I.voice s).channel else []

/-- Step 2 (R332). -/
def Instance.renderAdvance (cfg : Config) (frames : Nat) (I : Instance) : Instance :=
  let J := I.mapVoices fun v => v.advance frames
  J.emitAll cfg (retireWrites I J)

/-- The writes of one voice in step 3 (R333), with the level sampled before step 2 (R172). -/
def voiceWrites (cfg : Config) (I : Instance) (level : Rat) (v : Voice) : List (Addr × Byte) :=
  let f := pitch cfg I v
  let q := qvol level I.params.volume v.velocity
  match I.chip with
  | .nes => encNes cfg I.params v f q (!v.triggered)
  | .gb => encGb cfg I.params v f q (!v.triggered)

/-- The encoder writes of step 3 (R333), by slot; `level s` is `L0[s]`. -/
def encodeWrites (cfg : Config) (level : Nat → Rat) (I : Instance) : List (Addr × Byte) :=
  I.slots.flatMap fun s => if (I.voice s).active then voiceWrites cfg I (level s) (I.voice s) else []

/-- Step 3 on one voice's own state (R333): marked as triggered, then PENV_DECAY. -/
def Voice.mark (cfg : Config) (P : Params) (frames : Nat) (v : Voice) : Voice :=
  if v.active then { v with triggered := true, penv := penvDecay cfg P frames v.penv } else v

/-- Step 3 (R333). -/
def Instance.renderEncode (cfg : Config) (frames : Nat) (level : Nat → Rat) (I : Instance) : Instance :=
  (I.emitAll cfg (encodeWrites cfg level I)).mapVoices fun v => v.mark cfg I.params frames

/-- The silence writes of step 4 (R335), by channel: every channel with no active voice, enabled or not. -/
def idleWrites (cfg : Config) (I : Instance) : List (Addr × Byte) :=
  (channels cfg).flatMap fun c => if I.busy c then [] else silenceWrites I.chip I.params c

/-- Steps 4 and 5 (R335, R336). -/
def Instance.renderIdle (cfg : Config) (frames : Nat) (I : Instance) : Instance :=
  { I.emitAll cfg (idleWrites cfg I) with lfoPhase := lfoAdvance cfg I.params frames I.lfoPhase }

/-- `sat(x) = clamp(RND(x × OUTPUT_GAIN), -32768, 32767)` (R342) as a 16-bit sample. -/
def sat (cfg : Config) (x : Int) : Sample :=
  BitVec.ofInt 16 (clamp (rnd ((x : Rat) * cfg.outputGain)) (-32768) 32767)

/-- Step 7 (R342): frame k of the PCM, left then right; 0 where the core delivered no frame k. -/
def fillOut (cfg : Config) (frames : Nat) (pcm : List (Int × Int)) : List Sample :=
  (List.range frames).flatMap fun k =>
    [((pcm[k]?).map fun x => sat cfg x.1).getD 0, ((pcm[k]?).map fun x => sat cfg x.2).getD 0]

/-- Steps 1 to 5: the instance with the block's whole write list emitted and not yet consumed. -/
def Instance.renderWrites (cfg : Config) (frames : Nat) (I : Instance) : Instance :=
  let level := fun s => (I.voice s).env.level
  (((I.renderStart cfg).renderAdvance cfg frames).renderEncode cfg frames level).renderIdle cfg frames

/-- RENDER_BLOCK(out, frames) (R330): the instance after the block and the output buffer. With no active voice after
step 2 the output is zero (R343). -/
def renderBlock (cfg : Config) (frames : Nat) (I : Instance) : Instance × List Sample :=
  let J := (I.renderWrites cfg frames).endFrame (budget cfg I.chip)
  let r := J.readPcm frames
  (r.2, if J.anyActive then fillOut cfg frames r.1 else silence (2 * frames))

end Sys2Proof.Machine
end

