-- ==== Sys2Proof/Machine/Midi.lean ====
section
/-! DEFINITION. The meanings of the MIDI commands (46_host_interface.md §2), one per row. The MIDI channel is ignored
(R120). On ⊥ none of them has an effect (R31). -/

namespace Sys2Proof.Machine

/-- A command that changes nothing (R118, R119, R367). -/
def noEffect (s : State) : Host.Outcome State Fault Refusal := .next s

/-- MIDI_MALFORMED_STATUS (R370): nothing. -/
def execMidiMalformedStatus (s : State) : Host.Outcome State Fault Refusal := noEffect s

/-- MIDI_MALFORMED_DATA1 (R370): nothing. -/
def execMidiMalformedData1 (s : State) : Host.Outcome State Fault Refusal := noEffect s

/-- MIDI_MALFORMED_DATA2 (R370): nothing. -/
def execMidiMalformedData2 (s : State) : Host.Outcome State Fault Refusal := noEffect s

/-- NOTE_OFF (R364): `NOTE_OFF_RELEASE(XNOTE(n))`; the velocity is ignored. -/
def execNoteOff (n : BitVec 7) (s : State) : Host.Outcome State Fault Refusal :=
  onInstance (fun _ I => I.noteOffRelease (xnote I.params n.toNat)) s

/-- NOTE_ON_V0 (R363): `NOTE_OFF_RELEASE(XNOTE(n))`. -/
def execNoteOnV0 (n : BitVec 7) (s : State) : Host.Outcome State Fault Refusal :=
  onInstance (fun _ I => I.noteOffRelease (xnote I.params n.toNat)) s

/-- NOTE_ON (R362): `NOTE_ON_ALLOC(XNOTE(n), v)`. -/
def execNoteOn (n v : BitVec 7) (s : State) : Host.Outcome State Fault Refusal :=
  onInstance (fun cfg I => I.noteOnAlloc cfg (xnote I.params n.toNat) v.toNat) s

/-- POLY_AT (R369): nothing. -/
def execPolyAt (s : State) : Host.Outcome State Fault Refusal := noEffect s

/-- The mod wheel's effect (R365). -/
def Instance.modWheel (cfg : Config) (x : Nat) (I : Instance) : Instance :=
  match cfg.modWheel with
  | .ignore => I
  | .setVibratoDepth => { I with params := { I.params with vibDepth := modWheelDepth x } }

/-- CC_MODWHEEL (R365). -/
def execCcModwheel (x : BitVec 7) (s : State) : Host.Outcome State Fault Refusal :=
  onInstance (fun cfg I => I.modWheel cfg x.toNat) s

/-- CC_ALL_NOTES_OFF (R366): `ALL_VOICES_OFF()`. -/
def execCcAllNotesOff (s : State) : Host.Outcome State Fault Refusal :=
  onInstance (fun _ I => I.allVoicesOff) s

/-- CC_OTHER (R367): nothing. -/
def execCcOther (s : State) : Host.Outcome State Fault Refusal := noEffect s

/-- PROG_CHANGE (R369): nothing. -/
def execProgChange (s : State) : Host.Outcome State Fault Refusal := noEffect s

/-- CHAN_PRESSURE (R369): nothing. -/
def execChanPressure (s : State) : Host.Outcome State Fault Refusal := noEffect s

/-- PITCH_BEND (R368): `I.bend <- BEND_RANGE × (b - 8192) / 8192`. -/
def execPitchBend (b : BitVec 14) (s : State) : Host.Outcome State Fault Refusal :=
  onInstance (fun cfg I => { I with bend := bendSemitones cfg b.toNat }) s

/-- MIDI_SYSTEM (R369): nothing. -/
def execMidiSystem (s : State) : Host.Outcome State Fault Refusal := noEffect s

end Sys2Proof.Machine
end

