-- ==== Sys2Proof/Machine/HostCommands.lean ====
section
/-! DEFINITION. The meanings of the host calls (46_host_interface.md §3 and §4): parameters, lifecycle, render, and the
reserved words. -/

namespace Sys2Proof.Machine

/-! ### Parameters -/

/-- SET chip (R373). -/
def Instance.setChip (c : Int) (I : Instance) : Instance :=
  let chip := chipOfCode (clamp c 0 1)
  if chip = I.chip then I else { I.deactivateAll with chip := chip, initPending := true }

/-- SET preset (R374): an id out of range is ignored. -/
def Instance.setPreset (cfg : Config) (p : Int) (I : Instance) : Instance :=
  if p < 0 then I
  else
    match cfg.presets[p.toNat]? with
    | none => I
    | some q => { I with presetId := p.toNat, params := loadPreset cfg q I.params }

/-- SET_PARAM on an instance (R371): chip, preset, a field of the vector, or an unknown id, which is ignored. -/
def Instance.setParam (cfg : Config) (id : Nat) (v : Int) (I : Instance) : Instance :=
  if id = 0 then I.setChip v
  else if id = 18 then I.setPreset cfg v
  else if id ≤ 17 then { I with params := setParamField id (clampParam cfg id v) I.params }
  else I

/-- SET_PARAM (R371). -/
def execSetParam (id : BitVec 8) (value : BitVec 16) (s : State) : Host.Outcome State Fault Refusal :=
  onInstance (fun cfg I => I.setParam cfg id.toNat (paramValue value)) s

/-- `field(id)` for id 0..18, none for an unknown id (R376). -/
def Instance.getParam (id : Nat) (I : Instance) : Option Int :=
  if id = 0 then some (chipCode I.chip)
  else if id = 18 then some I.presetId
  else if id ≤ 17 then some (paramField I.params id)
  else none

/-- GET_PARAM (R376): only the returned value changes; on ⊥ it is none (R31). -/
def execGetParam (id : BitVec 8) (s : State) : Host.Outcome State Fault Refusal :=
  .next { s with ret := .param (s.inst.bind fun I => I.getParam id.toNat) }

/-! ### Lifecycle -/

/-- A voice slot after creation (R54). -/
def Voice.created (cfg : Config) : Voice where
  active := false
  note := 0
  velocity := 0
  channel := 0
  age := 0
  triggered := false
  env := Envelope.created cfg
  penv := 0

/-- What stands for the chip core after creation: the core's own reset (R440), and with it the registers' values (log
entry 11); DESIGN CHOICE: nothing enqueued (log entry 17), no cycle run (log entry 22). -/
def ChipCore.created (chip : Chip) : ChipCore where
  inner := Config.coreReset chip
  enqueued := []
  regs := Memory.created
  cycles := 0

/-- RESET(chip) (R440). DESIGN CHOICE (log entry 17): the write list, of which R440 says nothing and which R330 makes
only when a block starts, is empty. -/
def Instance.reset (cfg : Config) (chip : Chip) : Instance where
  chip := chip
  params := defaultParams
  presetId := 0
  voices := List.replicate cfg.poolSize (Voice.created cfg)
  lfoPhase := 0
  bend := 0
  ageCounter := 0
  initPending := true
  core := ChipCore.created chip
  writes := []

/-- CREATE (R377): refused while an instance exists, checked before the allocation draw (R406). -/
def execCreate (chip : Chip) (s : State) : Host.Outcome State Fault Refusal :=
  match s.inst with
  | some _ => .refused .alreadyCreated
  | none =>
    if s.allocOk then .next { s with inst := some (Instance.reset s.cfg chip), ret := .created }
    else .next { s with ret := .createFailed }

/-- DESTROY (R378): `state <- ⊥`. -/
def execDestroy (s : State) : Host.Outcome State Fault Refusal := .next { s with inst := none }

/-! ### Render -/

/-- RENDER (R379): zeros on ⊥ for any frame count (R403), refused on an instance for a count other than FPB (R458). -/
def execRender (frames : BitVec 16) (s : State) : Host.Outcome State Fault Refusal :=
  match s.inst with
  | none => .next { s with out := silence (2 * frames.toNat) }
  | some I =>
    if frames.toNat = s.cfg.fpb then
      .next { s with
        inst := some (renderBlock s.cfg frames.toNat I).1
        out := (renderBlock s.cfg frames.toNat I).2 }
    else .refused .frameCount

/-! ### Reserved words -/

/-- RESERVED (R111): `Refused(reservedCommand)`. -/
def execReserved (_s : State) : Host.Outcome State Fault Refusal := .refused .reservedCommand

end Sys2Proof.Machine
end

