-- ==== Sys2Proof/Machine/Records.lean ====
section
/-! DEFINITION. The meanings of the 53 register-write records: each is `Emit` of its row's address (R81, R82) and its
value byte, the one operation `emitRecord`. The encoders of a render emit the same records through the same
`Instance.emit` (log entry 12). -/

namespace Sys2Proof.Machine

/-- NES_PULSE1_CTRL (R272): `Emit($4000, value)`. -/
def execNesPulse1Ctrl (value : Byte) (s : State) : Host.Outcome State Fault Refusal := emitRecord 0x4000 value s

/-- NES_PULSE1_SWEEP (R272): `Emit($4001, value)`. -/
def execNesPulse1Sweep (value : Byte) (s : State) : Host.Outcome State Fault Refusal := emitRecord 0x4001 value s

/-- NES_PULSE1_LO (R272): `Emit($4002, value)`. -/
def execNesPulse1Lo (value : Byte) (s : State) : Host.Outcome State Fault Refusal := emitRecord 0x4002 value s

/-- NES_PULSE1_HI (R272): `Emit($4003, value)`. -/
def execNesPulse1Hi (value : Byte) (s : State) : Host.Outcome State Fault Refusal := emitRecord 0x4003 value s

/-- NES_PULSE2_CTRL (R272): `Emit($4004, value)`. -/
def execNesPulse2Ctrl (value : Byte) (s : State) : Host.Outcome State Fault Refusal := emitRecord 0x4004 value s

/-- NES_PULSE2_SWEEP (R272): `Emit($4005, value)`. -/
def execNesPulse2Sweep (value : Byte) (s : State) : Host.Outcome State Fault Refusal := emitRecord 0x4005 value s

/-- NES_PULSE2_LO (R272): `Emit($4006, value)`. -/
def execNesPulse2Lo (value : Byte) (s : State) : Host.Outcome State Fault Refusal := emitRecord 0x4006 value s

/-- NES_PULSE2_HI (R272): `Emit($4007, value)`. -/
def execNesPulse2Hi (value : Byte) (s : State) : Host.Outcome State Fault Refusal := emitRecord 0x4007 value s

/-- NES_TRI_LINEAR (R274): `Emit($4008, value)`. -/
def execNesTriLinear (value : Byte) (s : State) : Host.Outcome State Fault Refusal := emitRecord 0x4008 value s

/-- NES_TRI_LO (R274): `Emit($400A, value)`. -/
def execNesTriLo (value : Byte) (s : State) : Host.Outcome State Fault Refusal := emitRecord 0x400A value s

/-- NES_TRI_HI (R274): `Emit($400B, value)`. -/
def execNesTriHi (value : Byte) (s : State) : Host.Outcome State Fault Refusal := emitRecord 0x400B value s

/-- NES_NOISE_CTRL (R277): `Emit($400C, value)`. -/
def execNesNoiseCtrl (value : Byte) (s : State) : Host.Outcome State Fault Refusal := emitRecord 0x400C value s

/-- NES_NOISE_MODE (R277): `Emit($400E, value)`. -/
def execNesNoiseMode (value : Byte) (s : State) : Host.Outcome State Fault Refusal := emitRecord 0x400E value s

/-- NES_NOISE_LEN (R277): `Emit($400F, value)`. -/
def execNesNoiseLen (value : Byte) (s : State) : Host.Outcome State Fault Refusal := emitRecord 0x400F value s

/-- NES_STATUS (R280): `Emit($4015, value)`. -/
def execNesStatus (value : Byte) (s : State) : Host.Outcome State Fault Refusal := emitRecord 0x4015 value s

/-- NES_FRAME_COUNTER (R280): `Emit($4017, value)`. -/
def execNesFrameCounter (value : Byte) (s : State) : Host.Outcome State Fault Refusal := emitRecord 0x4017 value s

/-- GB_NR10 (R302): `Emit($FF10, value)`. -/
def execGbNr10 (value : Byte) (s : State) : Host.Outcome State Fault Refusal := emitRecord 0xFF10 value s

/-- GB_NR11 (R302): `Emit($FF11, value)`. -/
def execGbNr11 (value : Byte) (s : State) : Host.Outcome State Fault Refusal := emitRecord 0xFF11 value s

/-- GB_NR12 (R302): `Emit($FF12, value)`. -/
def execGbNr12 (value : Byte) (s : State) : Host.Outcome State Fault Refusal := emitRecord 0xFF12 value s

/-- GB_NR13 (R302): `Emit($FF13, value)`. -/
def execGbNr13 (value : Byte) (s : State) : Host.Outcome State Fault Refusal := emitRecord 0xFF13 value s

/-- GB_NR14 (R302): `Emit($FF14, value)`. -/
def execGbNr14 (value : Byte) (s : State) : Host.Outcome State Fault Refusal := emitRecord 0xFF14 value s

/-- GB_NR21 (R302): `Emit($FF16, value)`. -/
def execGbNr21 (value : Byte) (s : State) : Host.Outcome State Fault Refusal := emitRecord 0xFF16 value s

/-- GB_NR22 (R302): `Emit($FF17, value)`. -/
def execGbNr22 (value : Byte) (s : State) : Host.Outcome State Fault Refusal := emitRecord 0xFF17 value s

/-- GB_NR23 (R302): `Emit($FF18, value)`. -/
def execGbNr23 (value : Byte) (s : State) : Host.Outcome State Fault Refusal := emitRecord 0xFF18 value s

/-- GB_NR24 (R302): `Emit($FF19, value)`. -/
def execGbNr24 (value : Byte) (s : State) : Host.Outcome State Fault Refusal := emitRecord 0xFF19 value s

/-- GB_NR30 (R305): `Emit($FF1A, value)`. -/
def execGbNr30 (value : Byte) (s : State) : Host.Outcome State Fault Refusal := emitRecord 0xFF1A value s

/-- GB_NR31 (R305): `Emit($FF1B, value)`. -/
def execGbNr31 (value : Byte) (s : State) : Host.Outcome State Fault Refusal := emitRecord 0xFF1B value s

/-- GB_NR32 (R305): `Emit($FF1C, value)`. -/
def execGbNr32 (value : Byte) (s : State) : Host.Outcome State Fault Refusal := emitRecord 0xFF1C value s

/-- GB_NR33 (R305): `Emit($FF1D, value)`. -/
def execGbNr33 (value : Byte) (s : State) : Host.Outcome State Fault Refusal := emitRecord 0xFF1D value s

/-- GB_NR34 (R305): `Emit($FF1E, value)`. -/
def execGbNr34 (value : Byte) (s : State) : Host.Outcome State Fault Refusal := emitRecord 0xFF1E value s

/-- GB_NR41 (R309): `Emit($FF20, value)`. -/
def execGbNr41 (value : Byte) (s : State) : Host.Outcome State Fault Refusal := emitRecord 0xFF20 value s

/-- GB_NR42 (R309): `Emit($FF21, value)`. -/
def execGbNr42 (value : Byte) (s : State) : Host.Outcome State Fault Refusal := emitRecord 0xFF21 value s

/-- GB_NR43 (R309): `Emit($FF22, value)`. -/
def execGbNr43 (value : Byte) (s : State) : Host.Outcome State Fault Refusal := emitRecord 0xFF22 value s

/-- GB_NR44 (R309): `Emit($FF23, value)`. -/
def execGbNr44 (value : Byte) (s : State) : Host.Outcome State Fault Refusal := emitRecord 0xFF23 value s

/-- GB_NR50 (R312): `Emit($FF24, value)`. -/
def execGbNr50 (value : Byte) (s : State) : Host.Outcome State Fault Refusal := emitRecord 0xFF24 value s

/-- GB_NR51 (R312): `Emit($FF25, value)`. -/
def execGbNr51 (value : Byte) (s : State) : Host.Outcome State Fault Refusal := emitRecord 0xFF25 value s

/-- GB_NR52 (R312): `Emit($FF26, value)`. -/
def execGbNr52 (value : Byte) (s : State) : Host.Outcome State Fault Refusal := emitRecord 0xFF26 value s

/-- GB_WAVE_RAM_0 (R305): `Emit($FF30, value)`. -/
def execGbWaveRam0 (value : Byte) (s : State) : Host.Outcome State Fault Refusal := emitRecord 0xFF30 value s

/-- GB_WAVE_RAM_1 (R305): `Emit($FF31, value)`. -/
def execGbWaveRam1 (value : Byte) (s : State) : Host.Outcome State Fault Refusal := emitRecord 0xFF31 value s

/-- GB_WAVE_RAM_2 (R305): `Emit($FF32, value)`. -/
def execGbWaveRam2 (value : Byte) (s : State) : Host.Outcome State Fault Refusal := emitRecord 0xFF32 value s

/-- GB_WAVE_RAM_3 (R305): `Emit($FF33, value)`. -/
def execGbWaveRam3 (value : Byte) (s : State) : Host.Outcome State Fault Refusal := emitRecord 0xFF33 value s

/-- GB_WAVE_RAM_4 (R305): `Emit($FF34, value)`. -/
def execGbWaveRam4 (value : Byte) (s : State) : Host.Outcome State Fault Refusal := emitRecord 0xFF34 value s

/-- GB_WAVE_RAM_5 (R305): `Emit($FF35, value)`. -/
def execGbWaveRam5 (value : Byte) (s : State) : Host.Outcome State Fault Refusal := emitRecord 0xFF35 value s

/-- GB_WAVE_RAM_6 (R305): `Emit($FF36, value)`. -/
def execGbWaveRam6 (value : Byte) (s : State) : Host.Outcome State Fault Refusal := emitRecord 0xFF36 value s

/-- GB_WAVE_RAM_7 (R305): `Emit($FF37, value)`. -/
def execGbWaveRam7 (value : Byte) (s : State) : Host.Outcome State Fault Refusal := emitRecord 0xFF37 value s

/-- GB_WAVE_RAM_8 (R305): `Emit($FF38, value)`. -/
def execGbWaveRam8 (value : Byte) (s : State) : Host.Outcome State Fault Refusal := emitRecord 0xFF38 value s

/-- GB_WAVE_RAM_9 (R305): `Emit($FF39, value)`. -/
def execGbWaveRam9 (value : Byte) (s : State) : Host.Outcome State Fault Refusal := emitRecord 0xFF39 value s

/-- GB_WAVE_RAM_A (R305): `Emit($FF3A, value)`. -/
def execGbWaveRamA (value : Byte) (s : State) : Host.Outcome State Fault Refusal := emitRecord 0xFF3A value s

/-- GB_WAVE_RAM_B (R305): `Emit($FF3B, value)`. -/
def execGbWaveRamB (value : Byte) (s : State) : Host.Outcome State Fault Refusal := emitRecord 0xFF3B value s

/-- GB_WAVE_RAM_C (R305): `Emit($FF3C, value)`. -/
def execGbWaveRamC (value : Byte) (s : State) : Host.Outcome State Fault Refusal := emitRecord 0xFF3C value s

/-- GB_WAVE_RAM_D (R305): `Emit($FF3D, value)`. -/
def execGbWaveRamD (value : Byte) (s : State) : Host.Outcome State Fault Refusal := emitRecord 0xFF3D value s

/-- GB_WAVE_RAM_E (R305): `Emit($FF3E, value)`. -/
def execGbWaveRamE (value : Byte) (s : State) : Host.Outcome State Fault Refusal := emitRecord 0xFF3E value s

/-- GB_WAVE_RAM_F (R305): `Emit($FF3F, value)`. -/
def execGbWaveRamF (value : Byte) (s : State) : Host.Outcome State Fault Refusal := emitRecord 0xFF3F value s

end Sys2Proof.Machine
end

