-- ==== Sys2Proof/Machine/Dispatch.lean ====
section
/-! DEFINITION. The dispatch (R360): every instruction is handled by exactly one meaning. -/

namespace Sys2Proof.Machine

/-- The meaning of an instruction in a state. -/
def exec (i : Instr) (s : State) : Host.Outcome State Fault Refusal :=
  match i with
  | .midiMalformedStatus _ _ _ => Sys2Proof.Machine.execMidiMalformedStatus s
  | .midiMalformedData1 _ _ _ => Sys2Proof.Machine.execMidiMalformedData1 s
  | .midiMalformedData2 _ _ _ => Sys2Proof.Machine.execMidiMalformedData2 s
  | .noteOff _ n _ => Sys2Proof.Machine.execNoteOff n s
  | .noteOnV0 _ n => Sys2Proof.Machine.execNoteOnV0 n s
  | .noteOn _ n v => Sys2Proof.Machine.execNoteOn n v s
  | .polyAt _ _ _ => Sys2Proof.Machine.execPolyAt s
  | .ccModwheel _ x => Sys2Proof.Machine.execCcModwheel x s
  | .ccAllNotesOff _ _ => Sys2Proof.Machine.execCcAllNotesOff s
  | .ccOther _ _ _ => Sys2Proof.Machine.execCcOther s
  | .progChange _ _ _ => Sys2Proof.Machine.execProgChange s
  | .chanPressure _ _ _ => Sys2Proof.Machine.execChanPressure s
  | .pitchBend _ b => Sys2Proof.Machine.execPitchBend b s
  | .midiSystem _ _ _ => Sys2Proof.Machine.execMidiSystem s
  | .create chip => Sys2Proof.Machine.execCreate chip s
  | .destroy => Sys2Proof.Machine.execDestroy s
  | .render frames => Sys2Proof.Machine.execRender frames s
  | .setParam id value => Sys2Proof.Machine.execSetParam id value s
  | .getParam id => Sys2Proof.Machine.execGetParam id s
  | .reserved _ => Sys2Proof.Machine.execReserved s
  | .nesPulse1Ctrl v => Sys2Proof.Machine.execNesPulse1Ctrl v s
  | .nesPulse1Sweep v => Sys2Proof.Machine.execNesPulse1Sweep v s
  | .nesPulse1Lo v => Sys2Proof.Machine.execNesPulse1Lo v s
  | .nesPulse1Hi v => Sys2Proof.Machine.execNesPulse1Hi v s
  | .nesPulse2Ctrl v => Sys2Proof.Machine.execNesPulse2Ctrl v s
  | .nesPulse2Sweep v => Sys2Proof.Machine.execNesPulse2Sweep v s
  | .nesPulse2Lo v => Sys2Proof.Machine.execNesPulse2Lo v s
  | .nesPulse2Hi v => Sys2Proof.Machine.execNesPulse2Hi v s
  | .nesTriLinear v => Sys2Proof.Machine.execNesTriLinear v s
  | .nesTriLo v => Sys2Proof.Machine.execNesTriLo v s
  | .nesTriHi v => Sys2Proof.Machine.execNesTriHi v s
  | .nesNoiseCtrl v => Sys2Proof.Machine.execNesNoiseCtrl v s
  | .nesNoiseMode v => Sys2Proof.Machine.execNesNoiseMode v s
  | .nesNoiseLen v => Sys2Proof.Machine.execNesNoiseLen v s
  | .nesStatus v => Sys2Proof.Machine.execNesStatus v s
  | .nesFrameCounter v => Sys2Proof.Machine.execNesFrameCounter v s
  | .gbNr10 v => Sys2Proof.Machine.execGbNr10 v s
  | .gbNr11 v => Sys2Proof.Machine.execGbNr11 v s
  | .gbNr12 v => Sys2Proof.Machine.execGbNr12 v s
  | .gbNr13 v => Sys2Proof.Machine.execGbNr13 v s
  | .gbNr14 v => Sys2Proof.Machine.execGbNr14 v s
  | .gbNr21 v => Sys2Proof.Machine.execGbNr21 v s
  | .gbNr22 v => Sys2Proof.Machine.execGbNr22 v s
  | .gbNr23 v => Sys2Proof.Machine.execGbNr23 v s
  | .gbNr24 v => Sys2Proof.Machine.execGbNr24 v s
  | .gbNr30 v => Sys2Proof.Machine.execGbNr30 v s
  | .gbNr31 v => Sys2Proof.Machine.execGbNr31 v s
  | .gbNr32 v => Sys2Proof.Machine.execGbNr32 v s
  | .gbNr33 v => Sys2Proof.Machine.execGbNr33 v s
  | .gbNr34 v => Sys2Proof.Machine.execGbNr34 v s
  | .gbNr41 v => Sys2Proof.Machine.execGbNr41 v s
  | .gbNr42 v => Sys2Proof.Machine.execGbNr42 v s
  | .gbNr43 v => Sys2Proof.Machine.execGbNr43 v s
  | .gbNr44 v => Sys2Proof.Machine.execGbNr44 v s
  | .gbNr50 v => Sys2Proof.Machine.execGbNr50 v s
  | .gbNr51 v => Sys2Proof.Machine.execGbNr51 v s
  | .gbNr52 v => Sys2Proof.Machine.execGbNr52 v s
  | .gbWaveRam0 v => Sys2Proof.Machine.execGbWaveRam0 v s
  | .gbWaveRam1 v => Sys2Proof.Machine.execGbWaveRam1 v s
  | .gbWaveRam2 v => Sys2Proof.Machine.execGbWaveRam2 v s
  | .gbWaveRam3 v => Sys2Proof.Machine.execGbWaveRam3 v s
  | .gbWaveRam4 v => Sys2Proof.Machine.execGbWaveRam4 v s
  | .gbWaveRam5 v => Sys2Proof.Machine.execGbWaveRam5 v s
  | .gbWaveRam6 v => Sys2Proof.Machine.execGbWaveRam6 v s
  | .gbWaveRam7 v => Sys2Proof.Machine.execGbWaveRam7 v s
  | .gbWaveRam8 v => Sys2Proof.Machine.execGbWaveRam8 v s
  | .gbWaveRam9 v => Sys2Proof.Machine.execGbWaveRam9 v s
  | .gbWaveRamA v => Sys2Proof.Machine.execGbWaveRamA v s
  | .gbWaveRamB v => Sys2Proof.Machine.execGbWaveRamB v s
  | .gbWaveRamC v => Sys2Proof.Machine.execGbWaveRamC v s
  | .gbWaveRamD v => Sys2Proof.Machine.execGbWaveRamD v s
  | .gbWaveRamE v => Sys2Proof.Machine.execGbWaveRamE v s
  | .gbWaveRamF v => Sys2Proof.Machine.execGbWaveRamF v s

end Sys2Proof.Machine
end

