-- ==== Sys2Proof/Machine/Step.lean ====
section
/-! DEFINITION. One step of the machine: take the oldest delivered command, decode it, execute it (R90, R360). -/

namespace Sys2Proof.Machine

/-- The state in which a delivery's instruction is executed: the delivery taken off the queue, its draw in force. -/
def State.take (d : Delivery) (rest : List Delivery) (s : State) : State :=
  { s with inbox := rest, allocOk := d.allocOk }

/-- One step. With no command delivered the machine holds its state unchanged (R413); otherwise the oldest delivery is
decoded and executed, and a pattern that is no row of the table is refused by name. -/
def step (s : State) : Host.Outcome State Fault Refusal :=
  match s.inbox with
  | [] => .next s
  | d :: rest =>
    match decode d.packet with
    | .ok i => exec i (s.take d rest)
    | .error (.unknownRegister _) => .refused .unknownRegister

/-- The state with the instruction whose table bits are `w` delivered as the next command, an allocation it makes
succeeding (log entries 3 and 4). A row of more than 32 bits does not exist; for such an `nbits` nothing is
delivered. -/
def State.withFetchWord (s : State) (nbits w : Nat) : State :=
  match packetOfTableWord nbits w with
  | none => s
  | some p => { s with inbox := { packet := p, allocOk := true } :: s.inbox }

end Sys2Proof.Machine
end

