-- ==== Sys2Proof/Machine/CommandText.lean ====
section
/-! DEFINITION. The textual command language of R128 and R129: a line of text to a command word. It is the form in
which 95_test_vectors.md writes programs; the machine itself takes words. -/

namespace Sys2Proof.Machine

/-- The key column of R33, with the ids. -/
def paramKeys : List (String × Nat) :=
  [("chip", 0), ("duty", 1), ("attack", 2), ("decay", 3), ("sustain", 4), ("release", 5), ("sweep", 6),
   ("vibrato_depth", 7), ("vibrato_rate", 8), ("noise_mode", 9)] ++
  [("wavetable", 10), ("channel_mask", 11), ("detune", 12), ("volume", 13), ("octave", 14), ("alloc_mode", 15),
   ("pitch_env_depth", 16), ("pitch_env_speed", 17), ("preset", 18)]

/-- `id(key)` (R128). -/
def keyId (key : String) : Option Nat := (paramKeys.find? fun k => k.1 == key).map Prod.snd

/-- The commands of R128, operands as integers. -/
inductive TextCommand where
  | create (chip : Chip)
  | destroy
  | render (frames : Nat)
  | set (id : Nat) (value : Int)
  | get (id : Nat)
  | noteOn (n v c : Nat)
  | noteOff (n v c : Nat)
  | cc (k x c : Nat)
  | bend (b c : Nat)
  | midi (s d1 d2 : Nat)
deriving DecidableEq, Repr

/-- The operands fit their fields (log entry 20). -/
def TextCommand.fits : TextCommand → Bool
  | .create _ | .destroy => true
  | .render frames => frames < 65536
  | .set id _ => id < 256
  | .get id => id < 256
  | .noteOn n v c => n < 128 && v < 128 && c < 16
  | .noteOff n v c => n < 128 && v < 128 && c < 16
  | .cc k x c => k < 128 && x < 128 && c < 16
  | .bend b c => b < 16384 && c < 16
  | .midi s d1 d2 => s < 256 && d1 < 256 && d2 < 256

/-- The command word column of R128, as a number. -/
def TextCommand.number : TextCommand → Nat
  | .create .nes => 0x01000000
  | .create .gb => 0x01000001
  | .destroy => 0x02000000
  | .render frames => 0x03000000 ||| frames
  | .set id value => 0x04000000 ||| (id <<< 16) ||| (value % 65536).toNat
  | .get id => 0x05000000 ||| (id <<< 16)
  | .noteOn n v c => 0x00900000 ||| (c <<< 16) ||| (n <<< 8) ||| v
  | .noteOff n v c => 0x00800000 ||| (c <<< 16) ||| (n <<< 8) ||| v
  | .cc k x c => 0x00B00000 ||| (c <<< 16) ||| (k <<< 8) ||| x
  | .bend b c => 0x00E00000 ||| (c <<< 16) ||| ((b &&& 0x7F) <<< 8) ||| (b >>> 7)
  | .midi s d1 d2 => (s <<< 16) ||| (d1 <<< 8) ||| d2

/-- The command word of a command. -/
def TextCommand.word (t : TextCommand) : Word := BitVec.ofNat 32 t.number

/-! ### From characters to commands -/

/-- White space between the parts of a line. -/
def isBlank (c : Char) : Bool := c == ' ' || c == '\t'

/-- The parts of a line in order; `acc` is the part being read, in reverse. `#` begins a comment. -/
def lineParts : List Char → List Char → List String
  | [], acc => if acc.isEmpty then [] else [String.ofList acc.reverse]
  | c :: rest, acc =>
    if c == '#' then (if acc.isEmpty then [] else [String.ofList acc.reverse])
    else if isBlank c then (if acc.isEmpty then lineParts rest [] else String.ofList acc.reverse :: lineParts rest [])
    else lineParts rest (c :: acc)

/-- The value of a hexadecimal digit. -/
def digitValue (c : Char) : Option Nat :=
  if '0' ≤ c ∧ c ≤ '9' then some (c.toNat - '0'.toNat)
  else if 'a' ≤ c ∧ c ≤ 'f' then some (c.toNat - 'a'.toNat + 10)
  else if 'A' ≤ c ∧ c ≤ 'F' then some (c.toNat - 'A'.toNat + 10)
  else none

/-- A run of digits in a base, continuing from `acc`. -/
def digits (base : Nat) : List Char → Nat → Option Nat
  | [], acc => some acc
  | c :: rest, acc =>
    match digitValue c with
    | none => none
    | some d => if d < base then digits base rest (acc * base + d) else none

/-- A natural number, decimal or `0x` hexadecimal. -/
def natural : List Char → Option Nat
  | '0' :: 'x' :: c :: rest => digits 16 (c :: rest) 0
  | c :: rest => digits 10 (c :: rest) 0
  | [] => none

/-- A natural number written as a part of a line. -/
def natPart (p : String) : Option Nat := natural p.toList

/-- An integer written as a part of a line. -/
def intPart (p : String) : Option Int :=
  match p.toList with
  | '-' :: rest => (natural rest).map fun n => -(n : Int)
  | cs => (natural cs).map fun n => (n : Int)

/-- `ch=<c>`. -/
def channelPart (p : String) : Option Nat :=
  match p.toList with
  | 'c' :: 'h' :: '=' :: rest => natural rest
  | _ => none

/-- The optional `ch=<c>` at the end of a line; absent means channel 0. -/
def channelOf : List String → Option Nat
  | [] => some 0
  | [p] => channelPart p
  | _ => none

/-- The optional release velocity, then the optional channel, of a note-off. -/
def noteOffTail : List String → Option (Nat × Nat)
  | [] => some (0, 0)
  | p :: rest =>
    match natPart p with
    | some v => (channelOf rest).map fun c => (v, c)
    | none => (channelOf (p :: rest)).map fun c => (0, c)

/-- The parts of a line as a command, the pseudo-commands of R129 expanded. -/
def parseParts : List String → Option TextCommand
  | ["create", "nes"] => some (.create .nes)
  | ["create", "gb"] => some (.create .gb)
  | ["destroy"] => some .destroy
  | ["render", f] => (natPart f).map .render
  | ["set", key, v] => do pure (.set (← keyId key) (← intPart v))
  | ["get", key] => do pure (.get (← keyId key))
  | "note_on" :: n :: v :: rest => do pure (.noteOn (← natPart n) (← natPart v) (← channelOf rest))
  | "note_off" :: n :: rest => do
    let t ← noteOffTail rest
    pure (.noteOff (← natPart n) t.1 t.2)
  | "cc" :: k :: x :: rest => do pure (.cc (← natPart k) (← natPart x) (← channelOf rest))
  | "bend" :: b :: rest => do pure (.bend (← natPart b) (← channelOf rest))
  | ["midi", s, d1] => do pure (.midi (← natPart s) (← natPart d1) 0)
  | ["midi", s, d1, d2] => do pure (.midi (← natPart s) (← natPart d1) (← natPart d2))
  | ["all_notes_off"] => some (.cc 123 0 0)
  | ["mod", x] => do pure (.cc 1 (← natPart x) 0)
  | ["bend_center"] => some (.bend 8192 0)
  | "note_off0" :: n :: rest => do pure (.noteOn (← natPart n) 0 (← channelOf rest))
  | ["preset", p] => do pure (.set 18 (← intPart p))
  | _ => none

/-- What a line of text is. -/
inductive TextLine where
  /-- nothing but white space and a comment -/
  | blank
  | command (t : TextCommand)
  /-- not a command of R128 or R129, or an operand that does not fit its field -/
  | malformed
deriving DecidableEq, Repr

/-- One line of the command language. -/
def parseLine (line : String) : TextLine :=
  match lineParts line.toList [] with
  | [] => .blank
  | parts =>
    match parseParts parts with
    | none => .malformed
    | some t => if t.fits then .command t else .malformed

end Sys2Proof.Machine
end

