-- ==== Sys2Proof/Safety.lean ====
section
/-! DEFINITION. The terms in which statements speak of good states and good outputs: the invariants of R66 and R243 with
the ranges of R30, R33, R54 and R56, the form of an emitted register write, the period a chip plays. -/

namespace Sys2Proof.Machine

/-! ### Register-write records -/

/-- The chip a register-write record belongs to (R81, R82); none for a command. -/
def recordChip : Instr → Option Chip
  | .midiMalformedStatus _ _ _ | .midiMalformedData1 _ _ _ | .midiMalformedData2 _ _ _ | .noteOff _ _ _ | .noteOnV0 _ _ | .noteOn _ _ _
  | .polyAt _ _ _ | .ccModwheel _ _ | .ccAllNotesOff _ _ | .ccOther _ _ _ | .progChange _ _ _ | .chanPressure _ _ _
  | .pitchBend _ _ | .midiSystem _ _ _ | .create _ | .destroy | .render _ | .setParam _ _
  | .getParam _ | .reserved _ => none
  | .nesPulse1Ctrl _ | .nesPulse1Sweep _ | .nesPulse1Lo _ | .nesPulse1Hi _ | .nesPulse2Ctrl _ | .nesPulse2Sweep _
  | .nesPulse2Lo _ | .nesPulse2Hi _ | .nesTriLinear _ | .nesTriLo _ | .nesTriHi _ | .nesNoiseCtrl _
  | .nesNoiseMode _ | .nesNoiseLen _ | .nesStatus _ | .nesFrameCounter _ => some .nes
  | .gbNr10 _ | .gbNr11 _ | .gbNr12 _ | .gbNr13 _ | .gbNr14 _ | .gbNr21 _
  | .gbNr22 _ | .gbNr23 _ | .gbNr24 _ | .gbNr30 _ | .gbNr31 _ | .gbNr32 _
  | .gbNr33 _ | .gbNr34 _ | .gbNr41 _ | .gbNr42 _ | .gbNr43 _ | .gbNr44 _
  | .gbNr50 _ | .gbNr51 _ | .gbNr52 _ | .gbWaveRam0 _ | .gbWaveRam1 _ | .gbWaveRam2 _
  | .gbWaveRam3 _ | .gbWaveRam4 _ | .gbWaveRam5 _ | .gbWaveRam6 _ | .gbWaveRam7 _ | .gbWaveRam8 _
  | .gbWaveRam9 _ | .gbWaveRamA _ | .gbWaveRamB _ | .gbWaveRamC _ | .gbWaveRamD _ | .gbWaveRamE _
  | .gbWaveRamF _ => some .gb

/-- The bits of a record's value that the table's row fixes (its field list, R124, R125): what the encoders, the
silence writes and the init prefixes of the rules write there. Commands have no such value. -/
def recordForm : Instr → Bool
  | .midiMalformedStatus _ _ _ | .midiMalformedData1 _ _ _ | .midiMalformedData2 _ _ _ | .noteOff _ _ _ | .noteOnV0 _ _ | .noteOn _ _ _
  | .polyAt _ _ _ | .ccModwheel _ _ | .ccAllNotesOff _ _ | .ccOther _ _ _ | .progChange _ _ _ | .chanPressure _ _ _
  | .pitchBend _ _ | .midiSystem _ _ _ | .create _ | .destroy | .render _ | .setParam _ _
  | .getParam _ | .reserved _ => false
  | .nesPulse1Ctrl v => v.extractLsb' 4 2 == 3
  | .nesPulse1Sweep v => v == 0x08
  | .nesPulse1Lo _ => true
  | .nesPulse1Hi v => v.extractLsb' 3 5 == 1
  | .nesPulse2Ctrl v => v.extractLsb' 4 2 == 3
  | .nesPulse2Sweep v => v == 0x08
  | .nesPulse2Lo _ => true
  | .nesPulse2Hi v => v.extractLsb' 3 5 == 1
  | .nesTriLinear v => v == 0xFF || v == 0x00
  | .nesTriLo _ => true
  | .nesTriHi v => v.extractLsb' 3 5 == 1
  | .nesNoiseCtrl v => v.extractLsb' 4 4 == 3
  | .nesNoiseMode v => v.extractLsb' 4 3 == 0
  | .nesNoiseLen v => v == 0x08
  | .nesStatus v => v == 0x0F
  | .nesFrameCounter v => v == 0x40
  | .gbNr10 v => v.extractLsb' 7 1 == 0
  | .gbNr11 v => v.extractLsb' 0 6 == 0
  | .gbNr12 v => v.extractLsb' 0 4 == 0
  | .gbNr13 _ => true
  | .gbNr14 v => v.extractLsb' 3 5 == 16
  | .gbNr21 v => v.extractLsb' 0 6 == 0
  | .gbNr22 v => v.extractLsb' 0 4 == 0
  | .gbNr23 _ => true
  | .gbNr24 v => v.extractLsb' 3 5 == 16
  | .gbNr30 v => v == 0x00 || v == 0x80
  | .gbNr31 v => v == 0x00
  | .gbNr32 v => v.extractLsb' 7 1 == 0 && v.extractLsb' 0 5 == 0
  | .gbNr33 _ => true
  | .gbNr34 v => v.extractLsb' 3 5 == 16
  | .gbNr41 v => v == 0x00
  | .gbNr42 v => v.extractLsb' 0 4 == 0
  | .gbNr43 _ => true
  | .gbNr44 v => v == 0x80
  | .gbNr50 v => v == 0x77
  | .gbNr51 v => v == 0xFF
  | .gbNr52 v => v == 0x80
  | .gbWaveRam0 _ => true
  | .gbWaveRam1 _ => true
  | .gbWaveRam2 _ => true
  | .gbWaveRam3 _ => true
  | .gbWaveRam4 _ => true
  | .gbWaveRam5 _ => true
  | .gbWaveRam6 _ => true
  | .gbWaveRam7 _ => true
  | .gbWaveRam8 _ => true
  | .gbWaveRam9 _ => true
  | .gbWaveRamA _ => true
  | .gbWaveRamB _ => true
  | .gbWaveRamC _ => true
  | .gbWaveRamD _ => true
  | .gbWaveRamE _ => true
  | .gbWaveRamF _ => true

/-- A write is one of the table's register-write rows of a chip, with the row's fixed bits. -/
def writeInForm (chip : Chip) (a : Addr) (v : Byte) : Bool :=
  match recordRow a.toNat v with
  | some i => recordChip i == some chip && recordForm i
  | none => false

/-- An address of the chip register space (R81, R82): one that a row of the table names. -/
def mappedRegister (a : Nat) : Bool := (recordRow a 0).isSome

/-- The 11-bit period or frequency value a channel plays: the high bits last written with the low byte last written
(R455), given the addresses of the two registers. -/
def playedPeriod (m : List Host.Cell) (lo hi : Addr) : Option (BitVec 11) :=
  match Memory.read? m lo.toNat, Memory.read? m hi.toNat with
  | some l, some h => some (h.extractLsb' 0 3 ++ l)
  | _, _ => none

/-! ### Words of the statements about allocation (R230, R237, R361) -/

/-- `XNOTE(n)` (R361). -/
def transposed (P : Params) (n : BitVec 7) : Nat := (max 0 (min 127 ((n.toNat : Int) + 12 * P.octave))).toNat

/-- Bit c of the channel mask (R40), of a channel there is. -/
def maskBit (cfg : Config) (P : Params) (c : Fin 4) : Prop := c.val < cfg.nChannels ∧ P.mask / 2 ^ (c : Nat) % 2 = 1

/-- `free(c)` (R230): the channel is enabled and no active voice has it. -/
def ChannelFree (cfg : Config) (I : Instance) (c : Fin 4) : Prop :=
  maskBit cfg I.params c ∧ ∀ s, (I.voice s).active = true → (I.voice s).channel ≠ c

/-- The rate of an envelope time parameter (R160). -/
def timeRate (param div sr : Nat) : Rat := if param = 0 then 1 else (div : Rat) / ((param : Rat) * (sr : Rat))

/-- The voice that VOICE_INIT (R237) starts in a slot whose envelope was `old`. -/
def startedVoice (cfg : Config) (P : Params) (old : Envelope) (n v : Nat) (c : Fin 4) (age : Nat) : Voice where
  active := true
  note := n
  velocity := v
  channel := c
  age := age
  triggered := false
  env := {
    level := old.level
    stage := .attack
    aRate := timeRate P.attack cfg.attackDiv cfg.sr
    dRate := timeRate P.decay cfg.drDiv cfg.sr
    rRate := timeRate P.release cfg.drDiv cfg.sr
    sLevel := (P.sustain : Rat) / 15 }
  penv := (P.penvDepth : Rat)

/-- No double is made (R238 step 5): Lead mode, no detune, a mask without both pulse channels, or another channel
than 0. -/
def NoDouble (cfg : Config) (P : Params) (c : Fin 4) : Prop :=
  P.mode = .lead ∨ P.detune = 0 ∨ ¬maskBit cfg P 0 ∨ ¬maskBit cfg P 1 ∨ c ≠ 0

/-! ### Words of the statements about a render (R332, R455) -/

/-- The voice of slot s is active and outlives the block (R332). -/
def Survives (cfg : Config) (I : Instance) (s : Nat) : Prop :=
  (I.voice s).active = true ∧ ((I.voice s).env.advance cfg.fpb).stage ≠ .idle

/-- The low and high period or frequency registers of a channel that has them (R270, R300). -/
def periodRegisters : Chip → Fin 4 → Option (Addr × Addr)
  | .nes, 0 => some (0x4002, 0x4003)
  | .nes, 1 => some (0x4006, 0x4007)
  | .nes, 2 => some (0x400A, 0x400B)
  | .nes, 3 => none
  | .gb, 0 => some (0xFF13, 0xFF14)
  | .gb, 1 => some (0xFF18, 0xFF19)
  | .gb, 2 => some (0xFF1D, 0xFF1E)
  | .gb, 3 => none

/-- The register whose write triggers a channel (R85). -/
def triggerRegister : Chip → Fin 4 → Addr
  | .nes, 0 => 0x4003
  | .nes, 1 => 0x4007
  | .nes, 2 => 0x400B
  | .nes, 3 => 0x400F
  | .gb, 0 => 0xFF14
  | .gb, 1 => 0xFF19
  | .gb, 2 => 0xFF1E
  | .gb, 3 => 0xFF23

/-- The 11-bit value of a frequency on a channel (R271, R301); no use on channel 3. -/
def channelPeriod (cfg : Config) (chip : Chip) (c : Fin 4) (f : Rat) : Nat :=
  match chip, c with
  | .nes, 2 => triPeriod cfg f
  | .nes, _ => pulsePeriod cfg f
  | .gb, 2 => waveFreq cfg f
  | .gb, _ => sqFreq cfg f

/-- One operation of the envelope generator (40_envelope.md). -/
inductive EnvelopeOp where
  | configure (P : Params)
  | gateOn
  | gateOff
  | step
  | advance (n : Nat)
deriving DecidableEq, Repr

/-- An envelope after an operation. -/
def EnvelopeOp.run (cfg : Config) (e : Envelope) : EnvelopeOp → Envelope
  | .configure P => e.configure cfg P
  | .gateOn => e.gateOn
  | .gateOff => e.gateOff
  | .step => e.step
  | .advance n => e.advance n

/-- The clock of a chip (R8). -/
def chipClock (cfg : Config) : Chip → Nat
  | .nes => cfg.nesClock
  | .gb => cfg.gbClock

/-! ### Words of the statements about parameters (R33, R380) -/

/-- The range column of R33, fields 1..17. -/
def rangeTable (cfg : Config) : List (Nat × Int × Int) :=
  [(1, 0, 3), (2, 0, 15), (3, 0, 15), (4, 0, 15), (5, 0, 15), (6, 0, 127), (7, 0, 100), (8, 0, 20), (9, 0, 1),
   (10, 0, (cfg.wavetables.length : Int) - 1), (11, 0, 15), (12, 0, 100), (13, 0, 15), (14, -3, 3), (15, 0, 2),
   (16, -24, 24), (17, 0, 15)]

/-- The SET_PARAM word of an id and a value (R110), delivered. -/
def setDelivery (id : Nat) (v : Int) : Delivery where
  packet := .command (BitVec.ofNat 32 (0x04000000 + id * 65536 + (v % 65536).toNat))
  allocOk := true

/-- A full parameter snapshot of an instance, as R380 writes it back: chip first, the fields, the preset id, the
fields again. -/
def snapshot (I : Instance) : List Delivery :=
  ([0] ++ presetIds ++ [18] ++ presetIds).map fun id => setDelivery id ((I.getParam id).getD 0)

/-! ### Invariants -/

/-- Every parameter in its range (R33). -/
structure ParamsOk (cfg : Config) (P : Params) : Prop where
  duty : P.duty ≤ 3
  attack : P.attack ≤ 15
  decay : P.decay ≤ 15
  sustain : P.sustain ≤ 15
  release : P.release ≤ 15
  sweep : P.sweep ≤ 127
  vibDepth : P.vibDepth ≤ 100
  vibRate : P.vibRate ≤ 20
  noiseMode : P.noiseMode ≤ 1
  wavetable : P.wavetable < cfg.wavetables.length
  mask : P.mask ≤ 15
  detune : P.detune ≤ 100
  volume : P.volume ≤ 15
  octaveLow : -3 ≤ P.octave
  octaveHigh : P.octave ≤ 3
  penvDepthLow : -24 ≤ P.penvDepth
  penvDepthHigh : P.penvDepth ≤ 24
  penvSpeed : P.penvSpeed ≤ 15

/-- An envelope's ranges (R56) and R66 (a) and (b). -/
structure EnvelopeOk (e : Envelope) : Prop where
  levelLow : 0 ≤ e.level
  levelHigh : e.level ≤ 1
  idleLevel : e.stage = .idle → e.level = 0
  aRateLow : 0 < e.aRate
  aRateHigh : e.aRate ≤ 1
  dRateLow : 0 < e.dRate
  dRateHigh : e.dRate ≤ 1
  rRateLow : 0 < e.rRate
  rRateHigh : e.rRate ≤ 1
  sLevelLow : 0 ≤ e.sLevel
  sLevelHigh : e.sLevel ≤ 1

/-- A voice's ranges (R54), and of an active voice: not Idle (R66 (c)), velocity at least 1 (R244), an age already
given out (R66 (e)). -/
structure VoiceOk (ageCounter : Nat) (v : Voice) : Prop where
  note : v.note ≤ 127
  velocity : v.velocity ≤ 127
  env : EnvelopeOk v.env
  penvLow : -24 ≤ v.penv
  penvHigh : v.penv ≤ 24
  activeStage : v.active = true → v.env.stage ≠ .idle
  activeVelocity : v.active = true → 1 ≤ v.velocity
  activeAge : v.active = true → v.age ≤ ageCounter

/-- What holds of an instance between two commands: the ranges of R30, R33, R54 and R56, R66, and the form of the
write list (R338) and of the chip register space (R81, R82). -/
structure InstanceOk (cfg : Config) (I : Instance) : Prop where
  params : ParamsOk cfg I.params
  presetId : I.presetId < cfg.presets.length
  /-- the pool has POOL_SIZE slots (R54) -/
  pool : I.voices.length = cfg.poolSize
  voices : ∀ s, VoiceOk I.ageCounter (I.voice s)
  /-- an active voice has one of the N_CHANNELS channels (R54, R230) -/
  channelBelow : ∀ s, (I.voice s).active = true → (I.voice s).channel.val < cfg.nChannels
  /-- R66 (d) -/
  channels : ∀ s t, (I.voice s).active = true → (I.voice t).active = true →
    (I.voice s).channel = (I.voice t).channel → s = t
  /-- R66 (e) -/
  ages : ∀ s t, (I.voice s).active = true → (I.voice t).active = true →
    (I.voice s).age = (I.voice t).age → s = t
  lfoLow : 0 ≤ I.lfoPhase
  lfoHigh : I.lfoPhase < 1
  bendLow : -(cfg.bendRange : Rat) ≤ I.bend
  bendHigh : I.bend < (cfg.bendRange : Rat)
  /-- R338: the k-th write carries the time `k × WRITE_STEP` -/
  writeTimes : I.writes.map WriteRecord.time = (List.range I.writes.length).map fun k => k * cfg.writeStep
  writesMapped : ∀ r ∈ I.writes, mappedRegister r.addr.toNat = true
  enqueuedMapped : ∀ r ∈ I.core.enqueued, mappedRegister r.addr.toNat = true
  regsForm : Memory.wf I.core.regs = true
  regsMapped : ∀ c ∈ I.core.regs, mappedRegister c.1 = true
  /-- every chip register holds a value (R81, R82) -/
  regsAll : I.core.regs.map Prod.fst = chipRegisters

/-- The machine's invariant. -/
structure State.Inv (s : State) : Prop where
  config : s.cfg.wf
  inst : ∀ I, s.inst = some I → InstanceOk s.cfg I

end Sys2Proof.Machine
end

