-- ==== Sys2Proof/Certificates/Slice0/Obligations.lean ====
section
/-! DEFINITION. The statements for the provers. Each docstring names the rules of the spec it states; where a clause
rests on the model's own choice it names the log entry. -/

section

open Sys2Proof Sys2Proof.Machine

/-! ### Reset and lifecycle -/

/-- The machine at reset is the null state with nothing delivered, under the default values of R8 and the default
tables of D27, D30 and D31. That reset is the null state and that EXP2 and SIN2PI are the named approximations are the
model's (log entries 1, 8 and 9). -/
def Obligations.ResetIsNullState : Prop :=
  State.reset.inst = none ∧ State.reset.inbox = [] ∧
  State.reset.cfg.poolSize = 5 ∧ State.reset.cfg.nChannels = 4 ∧
  State.reset.cfg.exp2 = .approximation ∧ State.reset.cfg.sin2pi = .approximation ∧
  State.reset.cfg.sr = 44100 ∧ State.reset.cfg.fpb = 128 ∧ State.reset.cfg.attackDiv = 60 ∧
  State.reset.cfg.drDiv = 15 ∧ State.reset.cfg.penvDiv = 60 ∧ State.reset.cfg.highNote = 96 ∧
  State.reset.cfg.bendRange = 2 ∧ State.reset.cfg.a4Hz = 440 ∧ State.reset.cfg.a4Note = 69 ∧
  State.reset.cfg.nesClock = 1789773 ∧ State.reset.cfg.gbClock = 4194304 ∧ State.reset.cfg.writeStep = 1 ∧
  State.reset.cfg.outputGain = 1 ∧ State.reset.cfg.modWheel = .ignore ∧
  State.reset.cfg.wavetables =
    [#v[0x01, 0x23, 0x45, 0x67, 0x89, 0xAB, 0xCD, 0xEF, 0xFE, 0xDC, 0xBA, 0x98, 0x76, 0x54, 0x32, 0x10]] ∧
  (∀ n < 128, State.reset.cfg.nesNoise[n]? = some (15 - n / 8)) ∧
  (∀ n < 128, State.reset.cfg.gbNoise[n]? = some (BitVec.ofNat 8 ((13 - n / 8) * 16 + (7 - n % 8))))

/-- R377, R402: CREATE is refused while an instance exists, returns CreateFailed and stays in the null state when the
draw CORE_ALLOC_OK fails, and otherwise gives RESET(chip). That the draw is a field of the state is the model's (log
entry 4), and so are the field that holds what was returned and its value on success (log entry 15). -/
def Obligations.CreateOutcomes : Prop :=
  ∀ (c : Chip) (s : State),
    (∀ I, s.inst = some I → exec (.create c) s = .refused .alreadyCreated) ∧
    (s.inst = none → s.allocOk = false → exec (.create c) s = .next { s with ret := .createFailed }) ∧
    (s.inst = none → s.allocOk = true →
      exec (.create c) s = .next { s with inst := some (Instance.reset s.cfg c), ret := .created })

/-- R440: every field of the instance a successful CREATE makes, for any parameters, and the envelope's numbers at SR
44100 and DR_DIV 15. The fields beside R440's are the model's: the empty write list and nothing enqueued (log entry
17), every chip register with the core's own value for it, of which nothing is known (log entry 11), and no cycle run
(log entry 22). -/
def Obligations.CreatedInstance : Prop :=
  ∀ (cfg : Config) (c : Chip),
    (Instance.reset cfg c).chip = c ∧
    (Instance.reset cfg c).params =
      { duty := 2, attack := 0, decay := 5, sustain := 10, release := 3, sweep := 0, vibDepth := 0, vibRate := 0
        noiseMode := 0, wavetable := 0, mask := 15, detune := 0, volume := 15, octave := 0, mode := .auto
        penvDepth := 0, penvSpeed := 0 } ∧
    (Instance.reset cfg c).presetId = 0 ∧
    (Instance.reset cfg c).voices.length = cfg.poolSize ∧
    (∀ k < cfg.poolSize, (Instance.reset cfg c).voice k =
      { active := false, note := 0, velocity := 0, channel := 0, age := 0, triggered := false
        env := { level := 0, stage := .idle, aRate := 1, dRate := timeRate 5 cfg.drDiv cfg.sr
                 rRate := timeRate 3 cfg.drDiv cfg.sr, sLevel := 2 / 3 }
        penv := 0 }) ∧
    (Instance.reset cfg c).lfoPhase = 0 ∧ (Instance.reset cfg c).bend = 0 ∧
    (Instance.reset cfg c).ageCounter = 0 ∧ (Instance.reset cfg c).initPending = true ∧
    (Instance.reset cfg c).core.inner = Config.coreReset c ∧
    (Instance.reset cfg c).writes = [] ∧ (Instance.reset cfg c).core.enqueued = [] ∧
    (Instance.reset cfg c).core.regs = (nesRegisters ++ gbRegisters).map (fun a => (a, Config.coreRegister a)) ∧
    (Instance.reset cfg c).core.cycles = 0 ∧
    (cfg.sr = 44100 → cfg.drDiv = 15 →
      timeRate 5 cfg.drDiv cfg.sr = 1 / 14700 ∧ timeRate 3 cfg.drDiv cfg.sr = 1 / 8820)

/-- R378, R444: DESTROY leaves the null state, and a CREATE after it whose allocation succeeds gives RESET(chip)
whatever the state before. That the draw is a field of the state is the model's (log entry 4), and so are the field
that holds what was returned and its value on success (log entry 15). -/
def Obligations.DestroyThenCreate : Prop :=
  ∀ (s : State) (c : Chip),
    exec .destroy s = .next { s with inst := none } ∧
    exec (.create c) { s with inst := none, allocOk := true } =
      .next { s with inst := some (Instance.reset s.cfg c), allocOk := true, ret := .created } ∧
    (Instance.reset s.cfg c).ageCounter = 0 ∧ ∀ k, ((Instance.reset s.cfg c).voice k).env.level = 0

/-- R31: in the null state every command but CREATE and RENDER has no effect; GET_PARAM returns none, through a field
of the state (log entry 15). That a register-write record delivered by itself has none either is the model's (log
entry 12). A RESERVED word is refused in every state (R111), so it is left to its own statement. -/
def Obligations.NullInstanceCommands : Prop :=
  ∀ (i : Instr) (s : State), s.inst = none → (∀ c, i ≠ .create c) → (∀ f, i ≠ .render f) →
    (∀ w, i ≠ .reserved w) →
    ∃ r, exec i s = .next { s with ret := r } ∧ ((∀ id, i ≠ .getParam id) → r = s.ret) ∧
      ∀ id, i = .getParam id → r = .param none

/-- R403: a RENDER in the null state fills the buffer with zeros, for every frame count, and changes nothing else. -/
def Obligations.NullInstanceRender : Prop :=
  ∀ (s : State) (f : BitVec 16), s.inst = none →
    exec (.render f) s = .next { s with out := List.replicate (2 * f.toNat) 0 }

/-- R458: a RENDER of an instance with another frame count than FPB is refused. -/
def Obligations.RenderRefusesOtherFrameCounts : Prop :=
  ∀ (s : State) (I : Instance) (f : BitVec 16), s.inst = some I → f.toNat ≠ s.cfg.fpb →
    exec (.render f) s = .refused .frameCount

/-! ### Words and steps -/

/-- R111: exactly the words with a reserved kind or a must-be-zero bit that is not zero are RESERVED, and RESERVED is
refused in every state. -/
def Obligations.ReservedWordsRefused : Prop :=
  ∀ w : Word,
    (decode (.command w) = .ok (.reserved w) ↔
      (6 ≤ w.toNat / 2 ^ 24 ∨ (w.toNat / 2 ^ 24 = 1 ∧ w.toNat % 2 ^ 24 / 2 ≠ 0) ∨
        (w.toNat / 2 ^ 24 = 2 ∧ w.toNat % 2 ^ 24 ≠ 0) ∨ (w.toNat / 2 ^ 24 = 3 ∧ w.toNat % 2 ^ 24 / 2 ^ 16 ≠ 0) ∨
        (w.toNat / 2 ^ 24 = 5 ∧ w.toNat % 2 ^ 16 ≠ 0))) ∧
    ∀ s, exec (.reserved w) s = .refused .reservedCommand

/-- A step takes the oldest delivery off the queue, puts its allocation draw in force and executes the decoded
instruction. The queue and the draw are the model's (log entries 2 and 4). -/
def Obligations.StepRunsDecodedInstruction : Prop :=
  ∀ (s : State) (d : Delivery) (rest : List Delivery) (i : Instr), s.inbox = d :: rest → decode d.packet = .ok i →
    step s = exec i { s with inbox := rest, allocOk := d.allocOk }

/-- With nothing delivered a step holds the state unchanged (R413), and a register-write pattern whose address is none
of R81 and R82 is refused by name; which patterns those are. The queue and the refusal are the model's (log entries 2
and 13). -/
def Obligations.StepWithoutInstruction : Prop :=
  (∀ s : State, s.inbox = [] → step s = .next s) ∧
  ∀ (s : State) (a : Addr) (v : Byte) (b : Bool) (rest : List Delivery),
    s.inbox = ⟨.record (a ++ v), b⟩ :: rest →
    (step s = .refused .unknownRegister ↔
      ¬(0x4000 ≤ a.toNat ∧ a.toNat ≤ 0x400F ∧ a.toNat ≠ 0x4009 ∧ a.toNat ≠ 0x400D) ∧ a.toNat ≠ 0x4015 ∧
      a.toNat ≠ 0x4017 ∧ ¬(0xFF10 ≤ a.toNat ∧ a.toNat ≤ 0xFF26 ∧ a.toNat ≠ 0xFF15 ∧ a.toNat ≠ 0xFF1F) ∧
      ¬(0xFF30 ≤ a.toNat ∧ a.toNat ≤ 0xFF3F))

/-- Decoding the packet of a well-formed instruction gives it back: all 73 rows, every operand value. -/
def Obligations.DecodeAfterEncode : Prop :=
  ∀ i : Instr, i.wf = true → decode (encode i) = .ok i

/-- Every packet that decodes has one meaning: the instruction is well formed and its packet is the one decoded. That
it holds of the MIDI words too rests on the model's keeping as operands the bits that R113 and R119 ignore (log entry
27). -/
def Obligations.EncodeAfterDecode : Prop :=
  ∀ (p : Packet) (i : Instr), decode p = .ok i → i.wf = true ∧ encode i = p

/-- R114..R119, R121, R122: every MIDI word, from the numbers of its three bytes: the malformed rows first, a note-on
of velocity 0 before NOTE_ON, controllers 1 and 123 before the others, and the operands. That a system message with a
data byte 1 of 128 or more is MIDI_MALFORMED_DATA1 is read from the table's priority (log entry 18), and that ignored
bits are kept as operands is the model's (log entry 27). -/
def Obligations.MidiWordsDecode : Prop :=
  ∀ S d1 d2 : Byte,
    decode (.command (BitVec.ofNat 32 (S.toNat * 65536 + d1.toNat * 256 + d2.toNat))) = .ok (
      let type := S.toNat / 16
      let ch : BitVec 4 := BitVec.ofNat 4 (S.toNat % 16)
      let x1 : BitVec 7 := BitVec.ofNat 7 (d1.toNat % 128)
      let x2 : BitVec 7 := BitVec.ofNat 7 (d2.toNat % 128)
      if S.toNat < 128 then .midiMalformedStatus (BitVec.ofNat 7 S.toNat) d1 d2
      else if 128 ≤ d1.toNat then .midiMalformedData1 (BitVec.ofNat 7 (S.toNat - 128)) x1 d2
      else if 128 ≤ d2.toNat ∧ (type = 8 ∨ type = 9 ∨ type = 10 ∨ type = 11 ∨ type = 14) then
        .midiMalformedData2 (BitVec.ofNat 7 (S.toNat - 128)) x1 x2
      else if type = 8 then .noteOff ch x1 x2
      else if type = 9 ∧ d2.toNat = 0 then .noteOnV0 ch x1
      else if type = 9 then .noteOn ch x1 x2
      else if type = 10 then .polyAt ch x1 x2
      else if type = 11 ∧ d1.toNat = 1 then .ccModwheel ch x2
      else if type = 11 ∧ d1.toNat = 123 then .ccAllNotesOff ch x2
      else if type = 11 then .ccOther ch x1 x2
      else if type = 12 then .progChange ch x1 d2
      else if type = 13 then .chanPressure ch x1 d2
      else if type = 14 then .pitchBend ch (BitVec.ofNat 14 (d2.toNat * 128 + d1.toNat))
      else .midiSystem ch x1 d2)

/-- R110: the words of the host calls, with every operand. -/
def Obligations.HostCallWordsDecode : Prop :=
  decode (.command 0x01000000) = .ok (.create .nes) ∧ decode (.command 0x01000001) = .ok (.create .gb) ∧
  decode (.command 0x02000000) = .ok .destroy ∧
  (∀ f : BitVec 16, decode (.command (BitVec.ofNat 32 (0x03000000 + f.toNat))) = .ok (.render f)) ∧
  (∀ (id : BitVec 8) (v : BitVec 16),
    decode (.command (BitVec.ofNat 32 (0x04000000 + id.toNat * 65536 + v.toNat))) = .ok (.setParam id v)) ∧
  ∀ id : BitVec 8, decode (.command (BitVec.ofNat 32 (0x05000000 + id.toNat * 65536))) = .ok (.getParam id)

/-- R128, R129: the parts of a line, the pseudo-commands among them, name their command; whole lines with comment,
hexadecimal and negative numbers; a line that names a command names one whose operands fit (log entry 20); and the
word of every such command decodes to the instruction it names, a `midi` line's word being that of its three bytes,
whose decoding MidiWordsDecode states. -/
def Obligations.TextCommandsDecode : Prop :=
  (∀ (a b c : String) (m n k : Nat) (x : Int), natPart a = some m → natPart b = some n → intPart b = some x →
    channelPart c = some k →
    parseParts ["render", a] = some (.render m) ∧
    (∀ key id, keyId key = some id →
      parseParts ["set", key, b] = some (.set id x) ∧ parseParts ["get", key] = some (.get id)) ∧
    parseParts ["note_on", a, b] = some (.noteOn m n 0) ∧ parseParts ["note_on", a, b, c] = some (.noteOn m n k) ∧
    parseParts ["note_off", a] = some (.noteOff m 0 0) ∧ parseParts ["note_off", a, b] = some (.noteOff m n 0) ∧
    parseParts ["note_off", a, c] = some (.noteOff m 0 k) ∧
    parseParts ["note_off", a, b, c] = some (.noteOff m n k) ∧
    parseParts ["cc", a, b] = some (.cc m n 0) ∧ parseParts ["cc", a, b, c] = some (.cc m n k) ∧
    parseParts ["bend", a] = some (.bend m 0) ∧ parseParts ["bend", a, c] = some (.bend m k) ∧
    parseParts ["midi", a, b] = some (.midi m n 0) ∧
    (∀ d j, natPart d = some j → parseParts ["midi", a, b, d] = some (.midi m n j)) ∧
    parseParts ["mod", a] = some (.cc 1 m 0) ∧ parseParts ["preset", b] = some (.set 18 x) ∧
    parseParts ["note_off0", a] = some (.noteOn m 0 0) ∧ parseParts ["note_off0", a, c] = some (.noteOn m 0 k)) ∧
  parseLine "create nes" = .command (.create .nes) ∧ parseLine "create gb" = .command (.create .gb) ∧
  parseLine "destroy" = .command .destroy ∧ parseLine "all_notes_off" = .command (.cc 123 0 0) ∧
  parseLine "bend_center" = .command (.bend 8192 0) ∧ parseLine "render 128  # one block" = .command (.render 128) ∧
  parseLine "set octave -1" = .command (.set 14 (-1)) ∧ parseLine "note_on 0x3C 100 ch=5" = .command (.noteOn 60 100 5) ∧
  parseLine "# nothing" = .blank ∧ parseLine "note_on 128 1" = .malformed ∧
  (∀ (line : String) (t : TextCommand), parseLine line = .command t → t.fits = true) ∧
  ∀ t : TextCommand, t.fits = true →
    match t with
    | .create c => decode (.command t.word) = .ok (.create c)
    | .destroy => decode (.command t.word) = .ok .destroy
    | .render f => decode (.command t.word) = .ok (.render (BitVec.ofNat 16 f))
    | .set id v => decode (.command t.word) = .ok (.setParam (BitVec.ofNat 8 id) (BitVec.ofInt 16 v))
    | .get id => decode (.command t.word) = .ok (.getParam (BitVec.ofNat 8 id))
    | .noteOn n v c => decode (.command t.word) =
        .ok (if v = 0 then .noteOnV0 (BitVec.ofNat 4 c) (BitVec.ofNat 7 n)
             else .noteOn (BitVec.ofNat 4 c) (BitVec.ofNat 7 n) (BitVec.ofNat 7 v))
    | .noteOff n v c => decode (.command t.word) =
        .ok (.noteOff (BitVec.ofNat 4 c) (BitVec.ofNat 7 n) (BitVec.ofNat 7 v))
    | .cc k x c => decode (.command t.word) =
        .ok (if k = 1 then .ccModwheel (BitVec.ofNat 4 c) (BitVec.ofNat 7 x)
             else if k = 123 then .ccAllNotesOff (BitVec.ofNat 4 c) (BitVec.ofNat 7 x)
             else .ccOther (BitVec.ofNat 4 c) (BitVec.ofNat 7 k) (BitVec.ofNat 7 x))
    | .bend b c => decode (.command t.word) = .ok (.pitchBend (BitVec.ofNat 4 c) (BitVec.ofNat 14 b))
    | .midi S d1 d2 => t.word = BitVec.ofNat 32 (S * 65536 + d1 * 256 + d2)

/-- Words and patterns written out from R110..R123: one or two of every family. -/
def Obligations.WrittenOutWordsDecode : Prop :=
  decode (.command 0b00000000_10000010_00111100_01000000) = .ok (.noteOff 2 60 64) ∧
  decode (.command 0b00000000_10010000_01000101_01100100) = .ok (.noteOn 0 69 100) ∧
  decode (.command 0b00000000_10010000_01000101_00000000) = .ok (.noteOnV0 0 69) ∧
  decode (.command 0b00000000_10110000_01111011_00000000) = .ok (.ccAllNotesOff 0 0) ∧
  decode (.command 0b00000000_11100000_00000001_01100000) = .ok (.pitchBend 0 12289) ∧
  decode (.command 0b00000000_01000101_01100100_00000000) = .ok (.midiMalformedStatus 0x45 0x64 0) ∧
  decode (.command 0b00000001_00000000_00000000_00000001) = .ok (.create .gb) ∧
  decode (.command 0b00000011_00000000_00000000_10000000) = .ok (.render 128) ∧
  decode (.command 0b00000100_00001110_11111111_11111101) = .ok (.setParam 14 0xFFFD) ∧
  decode (.command 0b00000110_00000000_00000000_00000000) = .ok (.reserved 0x06000000) ∧
  decode (.record 0b0100000000000011_00001000) = .ok (.nesPulse1Hi 0x08) ∧
  decode (.record 0b1111111100100110_10000000) = .ok (.gbNr52 0x80)

/-! ### Invariants -/

/-- The machine at reset meets its invariant, and so does the instance a CREATE makes under every well-formed
configuration. -/
def Obligations.InvariantAtResetAndCreation : Prop :=
  State.reset.Inv ∧ ∀ (cfg : Config) (c : Chip), cfg.wf → InstanceOk cfg (Instance.reset cfg c)

/-- R66 and the ranges of R30, R33, R54, R56: every step from any state that meets the invariant gives a state that
meets it. The invariant's clauses on the write list and the register space are the model's form of R338, R81, R82 (log
entries 11 and 17), and that an active voice's channel is below N_CHANNELS is the model's for fewer than four (log entry
5). -/
def Obligations.InvariantKeptByStep : Prop :=
  ∀ s t : State, s.Inv → step s = .next t → t.Inv

/-- R174: after every sequence of envelope operations the level is in [0, 1], and after an ENV_STEP an Idle envelope has
level 0. -/
def Obligations.EnvelopeStaysInRange : Prop :=
  ∀ (cfg : Config) (e : Envelope) (ops : List EnvelopeOp), cfg.wf → EnvelopeOk e →
    (∀ P, EnvelopeOp.configure P ∈ ops → ParamsOk cfg P) →
    0 ≤ (ops.foldl (EnvelopeOp.run cfg) e).level ∧ (ops.foldl (EnvelopeOp.run cfg) e).level ≤ 1 ∧
    ((ops.foldl (EnvelopeOp.run cfg) e).step.stage = .idle → (ops.foldl (EnvelopeOp.run cfg) e).step.level = 0)

/-! ### Envelopes -/

/-- R165..R170: the per-sample step in each stage. -/
def Obligations.EnvelopeStageSteps : Prop :=
  ∀ e : Envelope,
    (e.stage = .attack → e.level + e.aRate < 1 → e.step = { e with level := e.level + e.aRate }) ∧
    (e.stage = .attack → 1 ≤ e.level + e.aRate → e.step = { e with level := 1, stage := .decay }) ∧
    (e.stage = .decay → e.sLevel < e.level - e.dRate → e.step = { e with level := e.level - e.dRate }) ∧
    (e.stage = .decay → e.level - e.dRate ≤ e.sLevel → 0 < e.sLevel →
      e.step = { e with level := e.sLevel, stage := .sustain }) ∧
    (e.stage = .decay → e.level - e.dRate ≤ e.sLevel → e.sLevel ≤ 0 →
      e.step = { e with level := e.sLevel, stage := .idle }) ∧
    (e.stage = .sustain → e.step = e) ∧
    (e.stage = .release → 0 < e.level - e.rRate → e.step = { e with level := e.level - e.rRate }) ∧
    (e.stage = .release → e.level - e.rRate ≤ 0 → e.step = { e with level := 0, stage := .idle }) ∧
    (e.stage = .idle → e.step = { e with level := 0 })

/-- R160, R162, R163, R164: the captured rates and sustain level, gate-on from every stage keeping the level, gate-off
from every stage but Idle. -/
def Obligations.EnvelopeConfigureAndGates : Prop :=
  ∀ (cfg : Config) (P : Params) (e : Envelope),
    e.configure cfg P =
      { level := e.level, stage := e.stage, aRate := timeRate P.attack cfg.attackDiv cfg.sr
        dRate := timeRate P.decay cfg.drDiv cfg.sr, rRate := timeRate P.release cfg.drDiv cfg.sr
        sLevel := (P.sustain : Rat) / 15 } ∧
    e.gateOn = { e with stage := .attack } ∧
    (e.stage = .idle → e.gateOff = e) ∧ (e.stage ≠ .idle → e.gateOff = { e with stage := .release })

/-- R173: how many steps each stage lasts at SR 44100 with the divisors 60 and 15: the stage holds until the last step
and ends with it. The release starts at any level L of (0, 1]; from level 0 it lasts one step. -/
def Obligations.StageDurations : Prop :=
  ∀ (cfg : Config) (P : Params) (e0 : Envelope), cfg.sr = 44100 → cfg.attackDiv = 60 → cfg.drDiv = 15 →
    ParamsOk cfg P →
    (let e := { e0.configure cfg P with level := 0, stage := .attack }
     let n := if P.attack = 0 then 1 else 735 * P.attack
     (∀ k < n, (e.advance k).stage = .attack) ∧ (e.advance n).stage = .decay ∧ (e.advance n).level = 1) ∧
    (let e := { e0.configure cfg P with level := 1, stage := .decay }
     let n := if P.decay = 0 ∨ P.sustain = 15 then 1 else 196 * P.decay * (15 - P.sustain)
     (∀ k < n, (e.advance k).stage = .decay) ∧
     (e.advance n).stage = (if P.sustain = 0 then .idle else .sustain) ∧
     (e.advance n).level = (P.sustain : Rat) / 15) ∧
    ∀ L : Rat, 0 ≤ L → L ≤ 1 →
      (let e := { e0.configure cfg P with level := L, stage := .release }
       let n := if P.release = 0 ∨ L = 0 then 1 else ⌈2940 * (P.release : Rat) * L⌉.toNat
       (∀ k < n, (e.advance k).stage = .release) ∧ (e.advance n).stage = .idle ∧ (e.advance n).level = 0)

/-! ### Note-on -/

/-- R361, R362: on an instance NOTE_ON always completes, for every note, velocity, mode and mask. It writes voices and
the age counter only, and each slot keeps its voice, or only has it deactivated, or starts a voice of the transposed
note with a new age. -/
def Obligations.NoteOnFrame : Prop :=
  ∀ (s : State) (I : Instance) (ch : BitVec 4) (n v : BitVec 7), s.inst = some I →
    ∃ J, exec (.noteOn ch n v) s = .next { s with inst := some J } ∧
      J = { I with voices := J.voices, ageCounter := J.ageCounter } ∧ J.voices.length = I.voices.length ∧
      I.ageCounter ≤ J.ageCounter ∧ J.ageCounter ≤ I.ageCounter + 2 ∧
      ∀ k, J.voice k = I.voice k ∨ J.voice k = { I.voice k with active := false } ∨
        ∃ c age, I.ageCounter < age ∧ age ≤ J.ageCounter ∧
          J.voice k = startedVoice s.cfg I.params (I.voice k).env (transposed I.params n) v.toNat c age

/-- R234, R237, R238 in Lead mode: every voice is deactivated and slot 0 starts on the lowest enabled channel; under
an empty mask none starts. The pool has a slot. That with fewer than four channels those not below N_CHANNELS count as
not enabled is the model's (log entry 5). -/
def Obligations.NoteOnLead : Prop :=
  ∀ (s : State) (I : Instance) (ch : BitVec 4) (n v : BitVec 7), s.inst = some I → I.params.mode = .lead →
    0 < I.voices.length →
    ∃ J, exec (.noteOn ch n v) s = .next { s with inst := some J } ∧ J.voices.length = I.voices.length ∧
      (∀ k, k ≠ 0 → J.voice k = { I.voice k with active := false }) ∧
      (∀ c, maskBit s.cfg I.params c → (∀ d < c, ¬maskBit s.cfg I.params d) →
        J.voice 0 = startedVoice s.cfg I.params (I.voice 0).env (transposed I.params n) v.toNat c (I.ageCounter + 1) ∧
        J = { I with voices := J.voices, ageCounter := I.ageCounter + 1 }) ∧
      ((∀ c, ¬maskBit s.cfg I.params c) →
        J.voice 0 = { I.voice 0 with active := false } ∧ J = { I with voices := J.voices })

/-- R233, R235, R236, R237 with a channel free: Locked mode takes the least free channel; Auto mode takes channel 3
for a note above HIGH_NOTE if it is free, and else the least free channel. The voice starts in the least inactive
slot, or with no inactive slot in the one of least age, and no other slot changes. The double of R239 has its own
statement. That with fewer than four channels those not below N_CHANNELS count as not enabled is the model's (log
entry 5). -/
def Obligations.NoteOnTakesFreeChannel : Prop :=
  ∀ (s : State) (I : Instance) (ch : BitVec 4) (n v : BitVec 7) (c : Fin 4) (k : Nat), s.inst = some I →
    I.params.mode ≠ .lead → ChannelFree s.cfg I c →
    (I.params.mode = .auto ∧ s.cfg.highNote < transposed I.params n ∧ ChannelFree s.cfg I 3 → c = 3) →
    (¬(I.params.mode = .auto ∧ s.cfg.highNote < transposed I.params n ∧ ChannelFree s.cfg I 3) →
      ∀ d < c, ¬ChannelFree s.cfg I d) →
    NoDouble s.cfg I.params c → k < I.voices.length →
    ((I.voice k).active = false ∧ ∀ j < k, (I.voice j).active = true) ∨
      (∀ j < I.voices.length, (I.voice j).active = true ∧ (j ≠ k → (I.voice k).age < (I.voice j).age)) →
    ∃ J, exec (.noteOn ch n v) s = .next { s with inst := some J } ∧ J.voices.length = I.voices.length ∧
      J = { I with voices := J.voices, ageCounter := I.ageCounter + 1 } ∧
      J.voice k = startedVoice s.cfg I.params (I.voice k).env (transposed I.params n) v.toNat c (I.ageCounter + 1) ∧
      ∀ j, j ≠ k → J.voice j = I.voice j

/-- R231, R233, R235, R236 with no channel free: the voice of least age is deactivated and its channel taken, in
Locked mode among the voices on enabled channels, in Auto mode among all active voices; the new voice starts in the
least slot that is then inactive. That with fewer than four channels those not below N_CHANNELS count as not enabled
is the model's (log entry 5). -/
def Obligations.NoteOnStealsOldest : Prop :=
  ∀ (s : State) (I : Instance) (ch : BitVec 4) (n v : BitVec 7) (w k : Nat), s.inst = some I →
    I.params.mode ≠ .lead → (∃ c, maskBit s.cfg I.params c) → (∀ c, ¬ChannelFree s.cfg I c) →
    (I.voice w).active = true → (I.params.mode = .locked → maskBit s.cfg I.params (I.voice w).channel) →
    (∀ j, j ≠ w → (I.voice j).active = true → (I.params.mode = .locked → maskBit s.cfg I.params (I.voice j).channel) →
      (I.voice w).age < (I.voice j).age) →
    NoDouble s.cfg I.params (I.voice w).channel →
    k < I.voices.length → (k = w ∨ (I.voice k).active = false) → (∀ j < k, j ≠ w ∧ (I.voice j).active = true) →
    ∃ J, exec (.noteOn ch n v) s = .next { s with inst := some J } ∧ J.voices.length = I.voices.length ∧
      J = { I with voices := J.voices, ageCounter := I.ageCounter + 1 } ∧
      J.voice k = startedVoice s.cfg I.params (I.voice k).env (transposed I.params n) v.toNat (I.voice w).channel
        (I.ageCounter + 1) ∧
      (k ≠ w → J.voice w = { I.voice w with active := false }) ∧
      ∀ j, j ≠ k → j ≠ w → J.voice j = I.voice j

/-- R238 step 5, R239: beside what the same note-on does without detune, a main voice on channel 0 gets a double with
the next age on channel 1, in the least slot still inactive, and an earlier voice on channel 1 is deactivated; no
double without an inactive slot. That with fewer than four channels those not below N_CHANNELS count as not enabled is
the model's (log entry 5). -/
def Obligations.NoteOnMakesDouble : Prop :=
  ∀ (s : State) (I K : Instance) (ch : BitVec 4) (n v : BitVec 7) (k : Nat), s.inst = some I →
    I.params.mode ≠ .lead → 0 < I.params.detune → maskBit s.cfg I.params 0 → maskBit s.cfg I.params 1 →
    exec (.noteOn ch n v) { s with inst := some { I with params := { I.params with detune := 0 } } } =
      .next { s with inst := some K } →
    (K.voice k).age = I.ageCounter + 1 → (K.voice k).active = true → (K.voice k).channel = 0 →
    K.ageCounter = I.ageCounter + 1 →
    (∀ j, (I.voice j).active = true → (I.voice j).age ≤ I.ageCounter) →
    ∃ J, exec (.noteOn ch n v) s = .next { s with inst := some J } ∧ J.voices.length = I.voices.length ∧
      (∀ d < K.voices.length, (K.voice d).active = false → (∀ j < d, (K.voice j).active = true) →
        J = { I with voices := J.voices, ageCounter := I.ageCounter + 2 } ∧
        J.voice d = startedVoice s.cfg I.params (K.voice d).env (transposed I.params n) v.toNat 1 (I.ageCounter + 2) ∧
        ∀ j, j ≠ d → J.voice j =
          if (K.voice j).active = true ∧ (K.voice j).channel = 1 then { K.voice j with active := false }
          else K.voice j) ∧
      ((∀ d < K.voices.length, (K.voice d).active = true) →
        J = { I with voices := J.voices, ageCounter := I.ageCounter + 1 } ∧ ∀ j, J.voice j = K.voice j)

/-- R234..R236, R238 under an empty mask, Locked and Auto mode: a note-on changes nothing. That with fewer than four
channels those not below N_CHANNELS count as not enabled is the model's (log entry 5). -/
def Obligations.NoteOnEmptyMask : Prop :=
  ∀ (s : State) (I : Instance) (ch : BitVec 4) (n v : BitVec 7), s.inst = some I → I.params.mode ≠ .lead →
    (∀ c, ¬maskBit s.cfg I.params c) → exec (.noteOn ch n v) s = .next s

/-- R243: at most one voice is active on each of the N_CHANNELS channels, so with more slots than channels a slot is
inactive; after a note-on in Lead mode at most one voice is active, and in Locked mode at most as many on enabled
channels as there are enabled channels. That the channels are those below N_CHANNELS is the model's for fewer than
four (log entry 5). -/
def Obligations.AllocationLimits : Prop :=
  ∀ (s t : State) (I J : Instance), s.Inv → s.inst = some I →
    (I.slots.filter fun k => (I.voice k).active).length ≤ s.cfg.nChannels ∧
    (s.cfg.nChannels < s.cfg.poolSize → ∃ k < s.cfg.poolSize, (I.voice k).active = false) ∧
    ∀ (ch : BitVec 4) (n v : BitVec 7), exec (.noteOn ch n v) s = .next t → t.inst = some J →
      (I.params.mode = .lead → ∀ j k, (J.voice j).active = true → (J.voice k).active = true → j = k) ∧
      (I.params.mode = .locked →
        (J.slots.filter fun k => (J.voice k).active && enabled s.cfg J.params (J.voice k).channel).length ≤
          ((channels s.cfg).filter (enabled s.cfg J.params)).length)

/-! ### The other MIDI commands -/

/-- R240, R361, R363, R364: both note-offs release and deactivate every active voice of the transposed note and change
nothing else. -/
def Obligations.NoteOffReleasesMatches : Prop :=
  ∀ (s : State) (I : Instance) (ch : BitVec 4) (n v : BitVec 7), s.inst = some I →
    ∃ J, exec (.noteOff ch n v) s = .next { s with inst := some J } ∧
      exec (.noteOnV0 ch n) s = .next { s with inst := some J } ∧ J = { I with voices := J.voices } ∧
      J.voices.length = I.voices.length ∧
      ∀ k, J.voice k =
        if (I.voice k).active = true ∧ (I.voice k).note = transposed I.params n then
          { I.voice k with
            active := false
            env := if (I.voice k).env.stage = .idle then (I.voice k).env
                   else { (I.voice k).env with stage := .release } }
        else I.voice k

/-- R241, R366: all-notes-off releases and deactivates every active voice, whatever its value, and changes nothing
else. -/
def Obligations.AllNotesOffReleasesAll : Prop :=
  ∀ (s : State) (I : Instance) (ch : BitVec 4) (x : BitVec 7), s.inst = some I →
    ∃ J, exec (.ccAllNotesOff ch x) s = .next { s with inst := some J } ∧ J = { I with voices := J.voices } ∧
      J.voices.length = I.voices.length ∧
      ∀ k, J.voice k =
        if (I.voice k).active = true then
          { I.voice k with
            active := false
            env := if (I.voice k).env.stage = .idle then (I.voice k).env
                   else { (I.voice k).env with stage := .release } }
        else I.voice k

/-- R367, R369, R370: other controllers, polyphonic and channel pressure, program changes, system messages and malformed
messages complete and change nothing. -/
def Obligations.IgnoredMessagesChangeNothing : Prop :=
  ∀ s : State,
    (∀ st d1 d2, exec (.midiMalformedStatus st d1 d2) s = .next s) ∧
    (∀ st d1 d2, exec (.midiMalformedData1 st d1 d2) s = .next s) ∧
    (∀ st d1 d2, exec (.midiMalformedData2 st d1 d2) s = .next s) ∧
    (∀ ch n x, exec (.polyAt ch n x) s = .next s) ∧
    (∀ ch k x, exec (.ccOther ch k x) s = .next s) ∧
    (∀ ch p pad, exec (.progChange ch p pad) s = .next s) ∧
    (∀ ch x pad, exec (.chanPressure ch x pad) s = .next s) ∧
    ∀ lo d1 d2, exec (.midiSystem lo d1 d2) s = .next s

/-- R365: the mod wheel changes nothing under `ignore`, and under `setVibratoDepth` it sets the vibrato depth to the
rounded value, 0 for x = 0 and 100 for x = 127, and nothing else. -/
def Obligations.ModWheelEffect : Prop :=
  ∀ (s : State) (I : Instance) (ch : BitVec 4) (x : BitVec 7), s.inst = some I →
    (s.cfg.modWheel = .ignore → exec (.ccModwheel ch x) s = .next s) ∧
    (s.cfg.modWheel = .setVibratoDepth →
      exec (.ccModwheel ch x) s = .next { s with
        inst := some { I with params := { I.params with vibDepth := (200 * x.toNat + 127) / 254 } } }) ∧
    (200 * 0 + 127) / 254 = 0 ∧ (200 * 127 + 127) / 254 = 100

/-- R368: the bend in semitones of a 14-bit value, and nothing else; the centre gives 0, the lowest value -BEND_RANGE
exactly, every value less than BEND_RANGE. -/
def Obligations.PitchBendSetsBend : Prop :=
  ∀ (s : State) (I : Instance) (ch : BitVec 4) (b : BitVec 14), s.inst = some I →
    ∃ x : Rat, exec (.pitchBend ch b) s = .next { s with inst := some { I with bend := x } } ∧
      x * 8192 = (s.cfg.bendRange : Rat) * ((b.toNat : Int) - 8192 : Int) ∧
      (b.toNat = 8192 → x = 0) ∧ (b.toNat = 0 → x = -(s.cfg.bendRange : Rat)) ∧
      (0 < s.cfg.bendRange → x < (s.cfg.bendRange : Rat))

/-! ### Parameters -/

/-- R371, R372: SET_PARAM of an id 1..17 writes the clamped value to that field and nothing else; an id above 18 changes
nothing; writing back a field's own value changes nothing. -/
def Obligations.SetParamClampsOneField : Prop :=
  ∀ (s : State) (I : Instance) (v : BitVec 16), s.inst = some I → 0 < s.cfg.wavetables.length →
    (∀ r ∈ rangeTable s.cfg, ∃ Q,
      exec (.setParam (BitVec.ofNat 8 r.1) v) s = .next { s with inst := some { I with params := Q } } ∧
      paramField Q r.1 = max r.2.1 (min r.2.2 v.toInt) ∧
      (∀ r' ∈ rangeTable s.cfg, r'.1 ≠ r.1 → paramField Q r'.1 = paramField I.params r'.1) ∧
      (ParamsOk s.cfg I.params → v.toInt = paramField I.params r.1 → Q = I.params)) ∧
    ∀ id : BitVec 8, 18 < id.toNat → exec (.setParam id v) s = .next s

/-- R373: SET chip clamps its value; the chip already selected changes nothing; the other chip deactivates every
voice, selects the chip and makes the init prefix pending. That the core's state is left as it is is the model's (log
entry 23). -/
def Obligations.SetChipEffect : Prop :=
  ∀ (s : State) (I : Instance) (v : BitVec 16), s.inst = some I →
    (I.chip = (if v.toInt ≤ 0 then .nes else .gb) → exec (.setParam 0 v) s = .next s) ∧
    (I.chip ≠ (if v.toInt ≤ 0 then .nes else .gb) →
      ∃ J, exec (.setParam 0 v) s = .next { s with inst := some J } ∧
        J = { I with chip := (if v.toInt ≤ 0 then .nes else .gb), initPending := true, voices := J.voices } ∧
        J.voices.length = I.voices.length ∧
        ∀ k, J.voice k = { I.voice k with active := false })

/-- R374: SET preset with an id of the table loads every field 1..17, clamped, and the preset id, and nothing else;
any other id changes nothing. -/
def Obligations.SetPresetEffect : Prop :=
  ∀ (s : State) (I : Instance) (v : BitVec 16), s.inst = some I → 0 < s.cfg.wavetables.length →
    (v.toInt < 0 ∨ (s.cfg.presets.length : Int) ≤ v.toInt → exec (.setParam 18 v) s = .next s) ∧
    ∀ q, 0 ≤ v.toInt → s.cfg.presets[v.toInt.toNat]? = some q →
      ∃ Q, exec (.setParam 18 v) s = .next { s with
          inst := some { I with presetId := v.toInt.toNat, params := Q } } ∧
        ∀ r ∈ rangeTable s.cfg, paramField Q r.1 = max r.2.1 (min r.2.2 (paramField q r.1))

/-- R376, R33: GET_PARAM returns the field of its id and changes nothing else; none for an id above 18. That the value
is returned through a field of the state is the model's (log entry 15). -/
def Obligations.GetParamReturnsField : Prop :=
  ∀ (s : State) (I : Instance), s.inst = some I →
    (∀ r ∈ ([(0, if I.chip = .nes then 0 else 1), (1, (I.params.duty : Int)), (2, (I.params.attack : Int)),
        (3, (I.params.decay : Int)), (4, (I.params.sustain : Int)), (5, (I.params.release : Int)),
        (6, (I.params.sweep : Int)), (7, (I.params.vibDepth : Int)), (8, (I.params.vibRate : Int)),
        (9, (I.params.noiseMode : Int)), (10, (I.params.wavetable : Int)), (11, (I.params.mask : Int)),
        (12, (I.params.detune : Int)), (13, (I.params.volume : Int)), (14, I.params.octave),
        (15, if I.params.mode = .lead then 0 else if I.params.mode = .locked then 1 else 2),
        (16, I.params.penvDepth), (17, (I.params.penvSpeed : Int)), (18, (I.presetId : Int))] : List (Nat × Int)),
      exec (.getParam (BitVec.ofNat 8 r.1)) s = .next { s with ret := .param (some r.2) }) ∧
    ∀ id : BitVec 8, 18 < id.toNat → exec (.getParam id) s = .next { s with ret := .param none }

/-- R380: the 36 SET_PARAM commands of a full snapshot, run on a fresh instance of either chip, give the snapshot's
chip, parameter vector and preset id. That a run takes its commands from a queue, and leaves it empty, is the model's
(log entry 2). R380 has no hypothesis on the tables; the model's is that they are no longer than the 16-bit value
operand can index. -/
def Obligations.SnapshotRoundTrip : Prop :=
  ∀ (s : State) (I : Instance) (c : Chip), s.Inv → s.inst = some I → s.cfg.wavetables.length ≤ 32768 →
    s.cfg.presets.length ≤ 32768 →
    ∃ (t : State) (J : Instance),
      Host.Core.run Sys2Proof.core 36
        ({ s with inst := some (Instance.reset s.cfg c), inbox := snapshot I } : State) = .next t ∧
      t.inst = some J ∧ J.chip = I.chip ∧ J.params = I.params ∧ J.presetId = I.presetId ∧ t.inbox = []

/-! ### Whole-machine frames -/

/-- R32, R55, R60, R64 and the frame of every instruction: which instructions can write each part of the instance and of
the machine, and which make and discard the instance; a voice's note, velocity, channel, age and captured rates have
their own statement, VoiceKeepsItsAllocation. That the parameters are state no command writes, that the registers
change only in a RENDER, that a record can be delivered by itself and that SET chip leaves the core as it is are the
model's (log entries 5, 11, 12 and 23). -/
def Obligations.OnlyTheseInstructionsWrite : Prop :=
  ∀ (i : Instr) (s t : State), exec i s = .next t →
    t.cfg = s.cfg ∧ t.inbox = s.inbox ∧ t.allocOk = s.allocOk ∧
    ((∀ id, i ≠ .getParam id) → (∀ c, i ≠ .create c) → t.ret = s.ret) ∧
    ((∀ f, i ≠ .render f) → t.out = s.out) ∧
    (s.inst = none → t.inst ≠ none → ∃ c, i = .create c) ∧
    (s.inst ≠ none → t.inst = none → i = .destroy) ∧
    ∀ I J : Instance, s.inst = some I → t.inst = some J →
      ((∀ f, i ≠ .render f) → J.lfoPhase = I.lfoPhase ∧ J.core.regs = I.core.regs ∧
        J.core.inner = I.core.inner ∧ J.core.cycles = I.core.cycles) ∧
      ((∀ f, i ≠ .render f) → recordChip i = none → J.writes = I.writes ∧ J.core.enqueued = I.core.enqueued) ∧
      (J.chip ≠ I.chip → ∃ v, i = .setParam 0 v) ∧
      (J.presetId ≠ I.presetId → ∃ v, i = .setParam 18 v) ∧
      (J.params ≠ I.params → (∃ id v, i = .setParam id v ∧ id ≠ 0 ∧ id.toNat ≤ 18) ∨ ∃ ch x, i = .ccModwheel ch x) ∧
      (J.bend ≠ I.bend → ∃ ch b, i = .pitchBend ch b) ∧
      I.ageCounter ≤ J.ageCounter ∧ (J.ageCounter ≠ I.ageCounter → ∃ ch n v, i = .noteOn ch n v) ∧
      (I.initPending = false → J.initPending = true → ∃ v, i = .setParam 0 v) ∧
      (I.initPending = true → J.initPending = false → ∃ f, i = .render f) ∧
      J.voices.length = I.voices.length ∧
      ∀ k, ((I.voice k).active = false → (J.voice k).active = true → ∃ ch n v, i = .noteOn ch n v) ∧
        ((I.voice k).active = true → (J.voice k).active = false →
          (∃ f, i = .render f) ∨ (∃ ch n v, i = .noteOn ch n v) ∨ (∃ ch n v, i = .noteOff ch n v) ∨
          (∃ ch n, i = .noteOnV0 ch n) ∨ (∃ ch x, i = .ccAllNotesOff ch x) ∨ ∃ v, i = .setParam 0 v) ∧
        ((I.voice k).triggered = false → (J.voice k).triggered = true → ∃ f, i = .render f) ∧
        ((I.voice k).triggered = true → (J.voice k).triggered = false → ∃ ch n v, i = .noteOn ch n v) ∧
        ((J.voice k).env.level ≠ (I.voice k).env.level → ∃ f, i = .render f) ∧
        ((J.voice k).env.stage ≠ (I.voice k).env.stage →
          (∃ f, i = .render f) ∨ (∃ ch n v, i = .noteOn ch n v) ∨ (∃ ch n v, i = .noteOff ch n v) ∨
          (∃ ch n, i = .noteOnV0 ch n) ∨ ∃ ch x, i = .ccAllNotesOff ch x) ∧
        ((J.voice k).penv ≠ (I.voice k).penv → (∃ f, i = .render f) ∨ ∃ ch n v, i = .noteOn ch n v)

/-- R243 (c), R35, R55: over every instruction a slot's note, velocity, channel, age and captured rates stay as they
are, active or not, unless a note-on starts a new voice there with an age not given out before. -/
def Obligations.VoiceKeepsItsAllocation : Prop :=
  ∀ (i : Instr) (s t : State) (I J : Instance) (k : Nat), exec i s = .next t → s.inst = some I → t.inst = some J →
    ((J.voice k).note = (I.voice k).note ∧ (J.voice k).velocity = (I.voice k).velocity ∧
      (J.voice k).channel = (I.voice k).channel ∧ (J.voice k).age = (I.voice k).age ∧
      (J.voice k).env.aRate = (I.voice k).env.aRate ∧ (J.voice k).env.dRate = (I.voice k).env.dRate ∧
      (J.voice k).env.rRate = (I.voice k).env.rRate ∧ (J.voice k).env.sLevel = (I.voice k).env.sLevel) ∨
    ((∃ ch n v, i = .noteOn ch n v) ∧ I.ageCounter < (J.voice k).age ∧ (J.voice k).active = true)

/-! ### Render -/

/-- R204, R206, R331, R332, R333, R336, R337, R339: RENDER of FPB frames always completes. What it leaves unchanged, the
cleared init flag, the advanced LFO phase, the cycles run, and every slot: an inactive one as it was, an ended one
retired, any other advanced, marked as triggered and its pitch envelope decayed. The write list, the registers and
the samples have their own statements; of the core's own state nothing is said (log entry 10). -/
def Obligations.RenderUpdatesInstance : Prop :=
  ∀ (s : State) (I : Instance) (f : BitVec 16), s.inst = some I → f.toNat = s.cfg.fpb →
    ∃ J buf, exec (.render f) s = .next { s with inst := some J, out := buf } ∧ buf.length = 2 * s.cfg.fpb ∧
      J.chip = I.chip ∧ J.params = I.params ∧ J.presetId = I.presetId ∧ J.bend = I.bend ∧
      J.ageCounter = I.ageCounter ∧ J.initPending = false ∧
      0 ≤ J.lfoPhase ∧ J.lfoPhase < 1 ∧
      (∃ z : Int, J.lfoPhase = I.lfoPhase + (I.params.vibRate : Rat) * s.cfg.fpb / s.cfg.sr - z) ∧
      J.core.cycles = I.core.cycles + (2 * s.cfg.fpb * chipClock s.cfg I.chip + s.cfg.sr) / (2 * s.cfg.sr) ∧
      J.core.enqueued = [] ∧ J.voices.length = I.voices.length ∧
      ∀ k, ((I.voice k).active = false → J.voice k = I.voice k) ∧
        ((I.voice k).active = true → ¬Survives s.cfg I k →
          J.voice k = { I.voice k with env := (I.voice k).env.advance s.cfg.fpb, active := false }) ∧
        (Survives s.cfg I k →
          J.voice k = { I.voice k with
            env := (I.voice k).env.advance s.cfg.fpb
            triggered := true
            penv :=
              let d : Rat := (I.params.penvDepth.natAbs : Rat) * s.cfg.penvDiv * s.cfg.fpb /
                ((I.params.penvSpeed : Rat) * s.cfg.sr)
              if I.params.penvSpeed = 0 then (I.voice k).penv
              else if 0 ≤ (I.voice k).penv then max 0 ((I.voice k).penv - d)
              else min 0 ((I.voice k).penv + d) })

/-- R345: the write list of a block: init prefix, silences of the voices that end by slot, encoder writes of the others
by slot, silences of the channels with no voice left by channel, and no other write. That with fewer than four channels
only those below N_CHANNELS are silenced is the model's (log entry 5). -/
def Obligations.RenderWriteOrder : Prop :=
  ∀ (s : State) (I : Instance) (f : BitVec 16), s.inst = some I → f.toNat = s.cfg.fpb →
    ∃ J buf, exec (.render f) s = .next { s with inst := some J, out := buf } ∧
      J.writes.map (fun r => (r.addr, r.value)) =
        (if I.initPending = true then
          match I.chip with
          | .nes => [((0x4015 : Addr), (0x0F : Byte)), (0x4017, 0x40)]
          | .gb => [(0xFF26, 0x80), (0xFF24, 0x77), (0xFF25, 0xFF)]
         else []) ++
        (I.slots.flatMap fun k =>
          if (I.voice k).active = true ∧ ((I.voice k).env.advance s.cfg.fpb).stage = .idle then
            silenceWrites I.chip I.params (I.voice k).channel
          else []) ++
        (I.slots.flatMap fun k =>
          if (I.voice k).active = true ∧ ((I.voice k).env.advance s.cfg.fpb).stage ≠ .idle then
            let hz := pitch s.cfg I (I.voice k)
            let q := qvol (I.voice k).env.level I.params.volume (I.voice k).velocity
            match I.chip with
            | .nes => encNes s.cfg I.params (I.voice k) hz q (!(I.voice k).triggered)
            | .gb => encGb s.cfg I.params (I.voice k) hz q (!(I.voice k).triggered)
          else []) ++
        (([0, 1, 2, 3] : List (Fin 4)).flatMap fun c =>
          if c.val < s.cfg.nChannels ∧ ∀ k ∈ I.slots, (I.voice k).active = true →
            ((I.voice k).env.advance s.cfg.fpb).stage ≠ .idle → (I.voice k).channel ≠ c
          then silenceWrites I.chip I.params c else [])

/-- R338, R451, R459: the k-th write of a block carries the time k × WRITE_STEP, so times strictly increase from 0; a
block has at most 16 writes on NES and 38 on GB; at the default parameters every time is below the cycle budget. -/
def Obligations.WriteTimesAndBound : Prop :=
  ∀ (s t : State) (I J : Instance) (f : BitVec 16), s.Inv → s.inst = some I → exec (.render f) s = .next t →
    t.inst = some J →
    (∀ (k : Nat) (r : WriteRecord), J.writes[k]? = some r → r.time = k * s.cfg.writeStep) ∧
    (J.writes.map WriteRecord.time).Pairwise (· < ·) ∧
    J.writes.length ≤ (match I.chip with | .nes => 16 | .gb => 38) ∧
    (s.cfg.writeStep = 1 → s.cfg.fpb = 128 → s.cfg.sr = 44100 → s.cfg.nesClock = 1789773 → s.cfg.gbClock = 4194304 →
      budget s.cfg I.chip = (match I.chip with | .nes => 5195 | .gb => 12174) ∧
      ∀ r ∈ J.writes, r.time < budget s.cfg I.chip)

/-- R81, R82: every write of a block goes to a register of the selected chip's table, with the bits that the encoder,
silence and init rules R272..R280 and R302..R312 fix in the layouts of R124 and R125. -/
def Obligations.RenderWritesInForm : Prop :=
  ∀ (s t : State) (I J : Instance) (f : BitVec 16), s.Inv → s.inst = some I → exec (.render f) s = .next t →
    t.inst = some J → ∀ r ∈ J.writes, writeInForm I.chip r.addr r.value = true

/-- R450, R85: a channel's trigger register is written once in a block if a voice not yet triggered outlives the block
on that channel, and not at all otherwise; after the block every active voice is triggered. -/
def Obligations.TriggerWrittenOnce : Prop :=
  ∀ (s t : State) (I J : Instance) (f : BitVec 16), s.Inv → s.inst = some I → exec (.render f) s = .next t →
    t.inst = some J →
    (∀ k, (J.voice k).active = true → (J.voice k).triggered = true) ∧
    ∀ c : Fin 4,
      ((∃ k, Survives s.cfg I k ∧ (I.voice k).channel = c ∧ (I.voice k).triggered = false) →
        (J.writes.filter fun r => r.addr == triggerRegister I.chip c).length = 1) ∧
      ((¬∃ k, Survives s.cfg I k ∧ (I.voice k).channel = c ∧ (I.voice k).triggered = false) →
        (J.writes.filter fun r => r.addr == triggerRegister I.chip c).length = 0)

/-- R343, R335: with no voice left after step 2 the whole buffer is zero, and the core still runs its cycles; the
silence writes of every channel below N_CHANNELS stand in the write list, which has as many writes as channels or
more. That there are no other channels is the model's for fewer than four (log entry 5). -/
def Obligations.SilentWithoutVoices : Prop :=
  ∀ (s : State) (I : Instance) (f : BitVec 16), s.inst = some I → f.toNat = s.cfg.fpb →
    (∀ k, ¬Survives s.cfg I k) →
    ∃ J, exec (.render f) s = .next { s with inst := some J, out := List.replicate (2 * s.cfg.fpb) 0 } ∧
      J.core.cycles = I.core.cycles + budget s.cfg I.chip ∧
      (∀ c : Fin 4, c.val < s.cfg.nChannels → ∀ w ∈ silenceWrites I.chip I.params c,
        ∃ r ∈ J.writes, r.addr = w.1 ∧ r.value = w.2) ∧
      (s.cfg.nChannels ≤ 4 → s.cfg.nChannels ≤ J.writes.length)

/-- R337, R341, R342: with a voice left, frame k of the buffer is the core's frame k scaled and clamped, mono
duplicated, and zero beyond the frames the core delivered. The core's own behaviour is opaque (log entry 10). -/
def Obligations.OutputSamples : Prop :=
  ∀ (s : State) (I : Instance) (f : BitVec 16) (k0 : Nat), s.inst = some I → f.toNat = s.cfg.fpb →
    Survives s.cfg I k0 →
    ∃ J buf, exec (.render f) s = .next { s with inst := some J, out := buf } ∧
      (let core := Config.coreEndFrame I.chip I.core.inner (I.core.enqueued ++ J.writes) (budget s.cfg I.chip)
       let sample : Option Int → Sample := fun x =>
         match x with
         | some x => BitVec.ofInt 16 (max (-32768) (min 32767 ⌊(x : Rat) * s.cfg.outputGain + 1 / 2⌋))
         | none => 0
       ∀ k < s.cfg.fpb,
         match I.chip with
         | .nes =>
           let pcm := (Config.coreReadMono core s.cfg.fpb).1
           buf[2 * k]? = some (sample pcm[k]?) ∧ buf[2 * k + 1]? = some (sample pcm[k]?)
         | .gb =>
           let pcm := (Config.coreReadStereo core s.cfg.fpb).1
           buf[2 * k]? = some (sample (pcm[k]?.map Prod.fst)) ∧
           buf[2 * k + 1]? = some (sample (pcm[k]?.map Prod.snd)))

/-- R92, R93: after a RENDER every chip register holds the value of the last record written to it since the `EndFrame`
before, in list order, and a register no record names reads as before. The register space held in the state is the
model's (log entry 11). -/
def Obligations.RenderAppliesEveryWrite : Prop :=
  ∀ (s : State) (I : Instance) (f : BitVec 16), s.inst = some I → f.toNat = s.cfg.fpb →
    ∃ J buf, exec (.render f) s = .next { s with inst := some J, out := buf } ∧
      ∀ a : Nat, Memory.read? J.core.regs a =
        match (I.core.enqueued ++ J.writes).reverse.find? (fun r => r.addr.toNat == a) with
        | some r => some r.value
        | none => Memory.read? I.core.regs a

/-- R455: a block of a voice already triggered rewrites only the low byte, so the channel plays the high bits it had
with the low byte of the computed value; a block that triggers the voice gives the computed value. A high register
never written plays the bits of the core's own value for it; channel 3 has no such pair. The register space held in the
state is the model's (log entry 11). -/
def Obligations.StaleHighBits : Prop :=
  ∀ (s t : State) (I J : Instance) (f : BitVec 16) (k : Nat) (lo hi : Addr), s.Inv → s.inst = some I →
    exec (.render f) s = .next t → t.inst = some J → Survives s.cfg I k →
    periodRegisters I.chip (I.voice k).channel = some (lo, hi) →
    (let p := channelPeriod s.cfg I.chip (I.voice k).channel (pitch s.cfg I (I.voice k))
     ((I.voice k).triggered = false → playedPeriod J.core.regs lo hi = some (BitVec.ofNat 11 p)) ∧
     ((I.voice k).triggered = true → ∃ h : Byte,
       Memory.read? (Memory.apply I.core.regs I.core.enqueued) hi.toNat = some h ∧
       playedPeriod J.core.regs lo hi = some (BitVec.ofNat 11 (h.toNat % 8 * 256 + p % 256))))

/-! ### Volumes, pitches, encoders -/

/-- R334: the quantized volume is the floor of the product, no clamp ever needed within the ranges, and 0..15 for every
level. -/
def Obligations.QuantizedVolume : Prop :=
  (∀ (l : Rat) (vol vel : Nat), 0 ≤ l → l ≤ 1 → vol ≤ 15 → vel ≤ 127 →
    (qvol l vol vel : Int) = ⌊l * vol * vel / 127⌋) ∧
  (∀ (l : Rat) (vol vel : Nat), qvol l vol vel ≤ 15) ∧
  (∀ vol vel : Nat, qvol 0 vol vel = 0) ∧ qvol 1 15 127 = 15 ∧ qvol 1 15 100 = 11

/-- R270..R278, R281: the NES encoder's writes, byte by byte. -/
def Obligations.NesEncoderWrites : Prop :=
  ∀ (cfg : Config) (P : Params) (w : Voice) (hz : Rat) (q : Nat), cfg.wf → ParamsOk cfg P → q ≤ 15 → w.note ≤ 127 →
    (w.channel.val < 2 →
      let p := pulsePeriod cfg hz
      let b : Addr := BitVec.ofNat 16 (0x4000 + 4 * w.channel.val)
      encNes cfg P w hz q true =
        [(b, BitVec.ofNat 8 (64 * P.duty + 48 + q)), (b + 1, 0x08), (b + 2, BitVec.ofNat 8 (p % 256)),
         (b + 3, BitVec.ofNat 8 (8 + p / 256))] ∧
      encNes cfg P w hz q false =
        [(b, BitVec.ofNat 8 (64 * P.duty + 48 + q)), (b + 2, BitVec.ofNat 8 (p % 256))]) ∧
    (w.channel = 2 →
      let p := triPeriod cfg hz
      encNes cfg P w hz q true =
        [(0x4008, 0xFF), (0x400A, BitVec.ofNat 8 (p % 256)), (0x400B, BitVec.ofNat 8 (8 + p / 256))] ∧
      encNes cfg P w hz q false = [(0x400A, BitVec.ofNat 8 (p % 256))]) ∧
    (w.channel = 3 → ∃ x, cfg.nesNoise[w.note]? = some x ∧ x ≤ 15 ∧
      encNes cfg P w hz q true =
        [(0x400C, BitVec.ofNat 8 (48 + q)), (0x400E, BitVec.ofNat 8 (128 * P.noiseMode + x)), (0x400F, 0x08)] ∧
      encNes cfg P w hz q false =
        [(0x400C, BitVec.ofNat 8 (48 + q)), (0x400E, BitVec.ofNat 8 (128 * P.noiseMode + x))])

/-- R300, R302..R306, R309, R310, R313: the Game Boy encoder's writes, byte by byte. -/
def Obligations.GbEncoderWrites : Prop :=
  ∀ (cfg : Config) (P : Params) (w : Voice) (hz : Rat) (q : Nat), cfg.wf → ParamsOk cfg P → q ≤ 15 → w.note ≤ 127 →
    (w.channel.val < 2 →
      let x := sqFreq cfg hz
      let r : Addr := BitVec.ofNat 16 (0xFF11 + 5 * w.channel.val)
      encGb cfg P w hz q true =
        (if w.channel.val = 0 then [((0xFF10 : Addr), BitVec.ofNat 8 P.sweep)] else []) ++
        [(r, BitVec.ofNat 8 (64 * P.duty)), (r + 1, BitVec.ofNat 8 (16 * q)), (r + 2, BitVec.ofNat 8 (x % 256)),
         (r + 3, BitVec.ofNat 8 (128 + x / 256))] ∧
      encGb cfg P w hz q false =
        [(r + 1, BitVec.ofNat 8 (16 * q)), (r + 2, BitVec.ofNat 8 (x % 256))]) ∧
    (w.channel = 2 → ∃ table, cfg.wavetables[P.wavetable]? = some table ∧
      let x := waveFreq cfg hz
      let level : Byte := if q = 0 then 0x00 else if q ≤ 4 then 0x60 else if q ≤ 9 then 0x40 else 0x20
      encGb cfg P w hz q true =
        ((0xFF1A, 0x00) :: (table.toList.zipIdx.map fun y => (BitVec.ofNat 16 (0xFF30 + y.2), y.1))) ++
        [(0xFF1A, 0x80), (0xFF1B, 0x00), (0xFF1C, level), (0xFF1D, BitVec.ofNat 8 (x % 256)),
         (0xFF1E, BitVec.ofNat 8 (128 + x / 256))] ∧
      encGb cfg P w hz q false = [(0xFF1C, level), (0xFF1D, BitVec.ofNat 8 (x % 256))]) ∧
    (w.channel = 3 → ∃ y z : Byte, cfg.gbNoise[w.note]? = some y ∧
      (∀ i, z.getLsbD i = if i = 3 then decide (P.noiseMode = 1) else y.getLsbD i) ∧
      encGb cfg P w hz q true = [(0xFF20, 0x00), (0xFF21, BitVec.ofNat 8 (16 * q)), (0xFF22, z), (0xFF23, 0x80)] ∧
      encGb cfg P w hz q false = [(0xFF21, BitVec.ofNat 8 (16 * q)), (0xFF22, z)])

/-- R279, R280, R311, R312: the silence writes of every channel and the init prefixes. -/
def Obligations.SilenceAndInitWrites : Prop :=
  ∀ P : Params, P.duty ≤ 3 →
    silenceWrites .nes P 0 = [(0x4000, BitVec.ofNat 8 (64 * P.duty + 48))] ∧
    silenceWrites .nes P 1 = [(0x4004, BitVec.ofNat 8 (64 * P.duty + 48))] ∧
    silenceWrites .nes P 2 = [(0x4008, 0x00)] ∧ silenceWrites .nes P 3 = [(0x400C, 0x30)] ∧
    silenceWrites .gb P 0 = [(0xFF12, 0x00)] ∧ silenceWrites .gb P 1 = [(0xFF17, 0x00)] ∧
    silenceWrites .gb P 2 = [(0xFF1A, 0x00)] ∧ silenceWrites .gb P 3 = [(0xFF21, 0x00)] ∧
    initWrites .nes = [(0x4015, 0x0F), (0x4017, 0x40)] ∧
    initWrites .gb = [(0xFF26, 0x80), (0xFF24, 0x77), (0xFF25, 0xFF)]

/-- R271, R301: the four period and frequency functions, rounded to nearest with halves upward and clamped to 11 bits,
for every frequency; 440 Hz under the default clocks. -/
def Obligations.PeriodFunctions : Prop :=
  (∀ (cfg : Config) (hz : Rat), 0 < hz →
    (pulsePeriod cfg hz : Int) = max 0 (min 2047 ⌊(cfg.nesClock : Rat) / (16 * hz) - 1 / 2⌋) ∧
    (triPeriod cfg hz : Int) = max 0 (min 2047 ⌊(cfg.nesClock : Rat) / (32 * hz) - 1 / 2⌋) ∧
    (sqFreq cfg hz : Int) = max 0 (min 2047 ⌊4097 / 2 - (cfg.gbClock : Rat) / (32 * hz)⌋) ∧
    (waveFreq cfg hz : Int) = max 0 (min 2047 ⌊4097 / 2 - (cfg.gbClock : Rat) / (64 * hz)⌋)) ∧
  (∀ cfg : Config, cfg.nesClock = 1789773 → cfg.gbClock = 4194304 →
    pulsePeriod cfg 440 = 253 ∧ triPeriod cfg 440 = 126 ∧ sqFreq cfg 440 = 1750 ∧ waveFreq cfg 440 = 1899)

/-- R209, which the spec derives from R208, R276 and R307: the writes of a voice on the noise channel do not depend on
the bend, the LFO phase, the vibrato depth and rate, the pitch envelope's level, depth and speed or the detune. -/
def Obligations.NoiseIgnoresPitch : Prop :=
  ∀ (cfg : Config) (I : Instance) (w : Voice) (level b x p : Rat) (depth rate detune speed : Nat) (penvDepth : Int),
    w.channel = 3 →
    voiceWrites cfg { I with
        bend := b, lfoPhase := x
        params := { I.params with
          vibDepth := depth, vibRate := rate, detune := detune, penvDepth := penvDepth, penvSpeed := speed } }
      level { w with penv := p } = voiceWrites cfg I level w

/-- R200..R202, R205, R207, R208: the factors of a voice's frequency under any functions EXP2 and SIN2PI, and under
the model's approximations of the two, which are exact at these points (log entries 8 and 9), their corner values and
an octave up doubling the frequency. That with fewer than four channels those not below N_CHANNELS count as not enabled,
here for the detune, is the model's (log entry 5). -/
def Obligations.PitchFactors : Prop :=
  ∀ (cfg : Config) (I : Instance) (w : Voice),
    pitch cfg I w = noteFreq cfg w.note * bendMul cfg I * penvMul cfg w * vibMul cfg I * detuneMul cfg I.params w ∧
    (∀ n : Nat, noteFreq cfg n = cfg.a4Hz * exp2 cfg (((n : Rat) - cfg.a4Note) / 12)) ∧
    bendMul cfg I = exp2 cfg (I.bend / 12) ∧ penvMul cfg w = exp2 cfg (w.penv / 12) ∧
    (I.params.vibDepth = 0 ∨ I.params.vibRate = 0 → vibMul cfg I = 1) ∧
    (0 < I.params.vibDepth → 0 < I.params.vibRate →
      vibMul cfg I = exp2 cfg (sin2pi cfg I.lfoPhase * I.params.vibDepth / 1200)) ∧
    (w.channel = 1 → maskBit cfg I.params 0 → maskBit cfg I.params 1 →
      detuneMul cfg I.params w = exp2 cfg ((I.params.detune : Rat) / 1200)) ∧
    (w.channel ≠ 1 ∨ ¬maskBit cfg I.params 0 ∨ ¬maskBit cfg I.params 1 → detuneMul cfg I.params w = 1) ∧
    (cfg.exp2 = .approximation →
      noteFreq cfg cfg.a4Note = cfg.a4Hz ∧ (∀ n, noteFreq cfg (n + 12) = 2 * noteFreq cfg n) ∧
      (I.bend = 0 → bendMul cfg I = 1) ∧
      (w.penv = 0 → penvMul cfg w = 1) ∧ (w.penv = 12 → penvMul cfg w = 2) ∧ (w.penv = -12 → penvMul cfg w = 1 / 2) ∧
      (I.params.detune = 0 → detuneMul cfg I.params w = 1)) ∧
    (cfg.exp2 = .approximation → cfg.sin2pi = .approximation →
      (I.lfoPhase = 0 ∨ I.lfoPhase = 1 / 2 → vibMul cfg I = 1) ∧
      (0 < I.params.vibDepth → 0 < I.params.vibRate → I.lfoPhase = 1 / 4 →
        vibMul cfg I = exp2 cfg ((I.params.vibDepth : Rat) / 1200)) ∧
      (0 < I.params.vibDepth → 0 < I.params.vibRate → I.lfoPhase = 3 / 4 →
        vibMul cfg I = exp2 cfg (-(I.params.vibDepth : Rat) / 1200)))

/-- The two approximations against the real functions of R12: EXP2 to a relative error of 2^-100 and exactly at the
integers, SIN2PI to an error of 2^-60. That they are approximations is the model's choice (log entries 8 and 9). -/
def Obligations.RealFunctionsApproximated : Prop :=
  (∀ x : Rat,
    |((exp2Approx x : Rat) : Real) - (2 : Real) ^ (x : Real)| ≤ (1 / 2 ^ 100) * (2 : Real) ^ (x : Real)) ∧
  (∀ z : Int, exp2Approx z = (2 : Rat) ^ z) ∧
  ∀ x : Rat, |((sin2piApprox x : Rat) : Real) - Real.sin (2 * Real.pi * (x : Real))| ≤ 1 / 2 ^ 60

/-- R200, R271, R301 end to end: under the default clocks and tuning the period and frequency values the model computes
for every note 0..127, without bend, vibrato, pitch envelope or detune, are those of the exact real frequencies
440 · 2^((n - 69)/12), although the model's EXP2 is an approximation (log entry 8). -/
def Obligations.NotePeriodsExact : Prop :=
  ∀ (cfg : Config) (n : Nat), n ≤ 127 → cfg.exp2 = .approximation → cfg.a4Hz = 440 → cfg.a4Note = 69 →
    cfg.nesClock = 1789773 → cfg.gbClock = 4194304 →
    let hz : Real := 440 * (2 : Real) ^ (((n : Real) - 69) / 12)
    (pulsePeriod cfg (noteFreq cfg n) : Int) = max 0 (min 2047 ⌊(1789773 : Real) / (16 * hz) - 1 / 2⌋) ∧
    (triPeriod cfg (noteFreq cfg n) : Int) = max 0 (min 2047 ⌊(1789773 : Real) / (32 * hz) - 1 / 2⌋) ∧
    (sqFreq cfg (noteFreq cfg n) : Int) = max 0 (min 2047 ⌊4097 / 2 - (131072 : Real) / hz⌋) ∧
    (waveFreq cfg (noteFreq cfg n) : Int) = max 0 (min 2047 ⌊4097 / 2 - (65536 : Real) / hz⌋)

/-! ### Register-write records -/

/-- R14, R123: each of the 53 register-write records, delivered as an instruction, appends its address and value with
the next time of the block to the write list and hands it to the core, and changes nothing else; on the null state it
changes nothing. That a record can be delivered by itself is the model's reading of the table (log entry 12). -/
def Obligations.RecordsAreEmitted : Prop :=
  ∀ (i : Instr) (c : Chip) (s : State), recordChip i = some c →
    ∃ (a : Addr) (v : Byte), encode i = .record (a ++ v) ∧
      (s.inst = none → exec i s = .next s) ∧
      ∀ I, s.inst = some I →
        exec i s = .next { s with inst := some { I with
          writes := I.writes ++ [⟨I.writes.length * s.cfg.writeStep, a, v⟩]
          core := { I.core with
            enqueued := I.core.enqueued ++ [⟨I.writes.length * s.cfg.writeStep, a, v⟩] } } }

end
end

