-- ==== Sys2Proof/Laws/Envelopes.lean ====
section
/-! SUPPORT. What the envelope operations can do: one equation per stage of the step, the fields a gate or a
configuration leaves alone, and that each operation keeps an envelope's ranges. -/

namespace Sys2Proof.Machine

/-! ### Fields -/

@[simp] theorem Envelope.level_gateOn (e : Envelope) : e.gateOn.level = e.level := rfl
@[simp] theorem Envelope.stage_gateOn (e : Envelope) : e.gateOn.stage = .attack := rfl
@[simp] theorem Envelope.aRate_gateOn (e : Envelope) : e.gateOn.aRate = e.aRate := rfl
@[simp] theorem Envelope.dRate_gateOn (e : Envelope) : e.gateOn.dRate = e.dRate := rfl
@[simp] theorem Envelope.rRate_gateOn (e : Envelope) : e.gateOn.rRate = e.rRate := rfl
@[simp] theorem Envelope.sLevel_gateOn (e : Envelope) : e.gateOn.sLevel = e.sLevel := rfl
@[simp] theorem Envelope.level_configure (cfg : Config) (P : Params) (e : Envelope) :
    (e.configure cfg P).level = e.level := rfl
@[simp] theorem Envelope.stage_configure (cfg : Config) (P : Params) (e : Envelope) :
    (e.configure cfg P).stage = e.stage := rfl

/-- Gate-off: nothing from Idle, else the stage becomes Release. -/
theorem Envelope.gateOff_cases (e : Envelope) :
    (e.stage = .idle ∧ e.gateOff = e) ∨ (e.stage ≠ .idle ∧ e.gateOff = { e with stage := .release }) := by
  unfold Envelope.gateOff
  by_cases h : e.stage = .idle
  · exact .inl ⟨h, by rw [if_pos h]⟩
  · exact .inr ⟨h, by rw [if_neg h]⟩

/-! ### The step, by stage -/

theorem Envelope.step_attack {e : Envelope} (h : e.stage = .attack) : e.step = e.attackStep := by
  simp [Envelope.step, h]
theorem Envelope.step_decay {e : Envelope} (h : e.stage = .decay) : e.step = e.decayStep := by
  simp [Envelope.step, h]
theorem Envelope.step_sustain {e : Envelope} (h : e.stage = .sustain) : e.step = e := by
  simp [Envelope.step, h]
theorem Envelope.step_release {e : Envelope} (h : e.stage = .release) : e.step = e.releaseStep := by
  simp [Envelope.step, h]
theorem Envelope.step_idle {e : Envelope} (h : e.stage = .idle) : e.step = { e with level := 0 } := by
  simp [Envelope.step, h]

@[simp] theorem Envelope.advance_zero (e : Envelope) : e.advance 0 = e := rfl
theorem Envelope.advance_succ (n : Nat) (e : Envelope) : e.advance (n + 1) = e.step.advance n := rfl

theorem Envelope.advance_add (m n : Nat) (e : Envelope) : e.advance (m + n) = (e.advance m).advance n := by
  induction m generalizing e with
  | zero => simp
  | succ m ih => rw [Nat.succ_add, Envelope.advance_succ, ih, Envelope.advance_succ]

/-! ### Rates (R160) -/

theorem envRate_range {cfg : Config} {param div : Nat} (h0 : 0 < div) (h1 : div ≤ cfg.sr) :
    0 < envRate cfg param div ∧ envRate cfg param div ≤ 1 := by
  unfold envRate
  split
  · norm_num
  · rename_i hp
    have hp1 : (1 : Rat) ≤ param := by exact_mod_cast Nat.one_le_iff_ne_zero.2 hp
    have hd : (0 : Rat) < div := by exact_mod_cast h0
    have hs : (div : Rat) ≤ cfg.sr := by exact_mod_cast h1
    have hq : (1 : Rat) ≤ cfg.sr / div := by rwa [le_div_iff₀ hd, one_mul]
    have hm : (1 : Rat) ≤ param * (cfg.sr / div) := by nlinarith
    refine ⟨by positivity, ?_⟩
    rw [div_le_one (by linarith)]
    exact hm

/-! ### Ranges (R56, R66 (a), (b), R174) -/

theorem EnvelopeOk.step {e : Envelope} (h : EnvelopeOk e) : EnvelopeOk e.step := by
  obtain ⟨l0, l1, hi, a0, a1, d0, d1, r0, r1, s0, s1⟩ := h
  cases hs : e.stage with
  | idle =>
    rw [Envelope.step_idle hs]
    exact ⟨le_refl _, by norm_num, fun _ => rfl, a0, a1, d0, d1, r0, r1, s0, s1⟩
  | sustain =>
    rw [Envelope.step_sustain hs]
    exact ⟨l0, l1, hi, a0, a1, d0, d1, r0, r1, s0, s1⟩
  | attack =>
    rw [Envelope.step_attack hs]
    unfold Envelope.attackStep
    by_cases hl : 1 ≤ e.level + e.aRate
    · simp only [hl, if_true]
      exact ⟨by norm_num, le_refl _, fun h => by simp at h, a0, a1, d0, d1, r0, r1, s0, s1⟩
    · simp only [hl, if_false]
      exact ⟨by simp only; linarith, by simp only; linarith, fun h => by simp [hs] at h, a0, a1, d0, d1, r0, r1, s0, s1⟩
  | decay =>
    rw [Envelope.step_decay hs]
    unfold Envelope.decayStep
    by_cases hl : e.level - e.dRate ≤ e.sLevel
    · simp only [hl, if_true]
      refine ⟨s0, s1, fun h => ?_, a0, a1, d0, d1, r0, r1, s0, s1⟩
      by_cases hp : 0 < e.sLevel
      · simp [hp] at h
      · exact le_antisymm (not_lt.1 hp) s0
    · simp only [hl, if_false]
      exact ⟨by simp only; linarith, by simp only; linarith, fun h => by simp [hs] at h, a0, a1, d0, d1, r0, r1, s0, s1⟩
  | release =>
    rw [Envelope.step_release hs]
    unfold Envelope.releaseStep
    by_cases hl : e.level - e.rRate ≤ 0
    · simp only [hl, if_true]
      exact ⟨le_refl _, by norm_num, fun _ => rfl, a0, a1, d0, d1, r0, r1, s0, s1⟩
    · simp only [hl, if_false]
      exact ⟨by simp only; linarith, by simp only; linarith, fun h => by simp [hs] at h, a0, a1, d0, d1, r0, r1, s0, s1⟩

theorem EnvelopeOk.advance {e : Envelope} (h : EnvelopeOk e) (n : Nat) : EnvelopeOk (e.advance n) := by
  induction n generalizing e with
  | zero => exact h
  | succ n ih => exact ih h.step

theorem EnvelopeOk.gateOff {e : Envelope} (h : EnvelopeOk e) : EnvelopeOk e.gateOff := by
  rcases e.gateOff_cases with ⟨_, he⟩ | ⟨_, he⟩ <;> rw [he]
  · exact h
  · exact ⟨h.levelLow, h.levelHigh, fun h => by simp at h, h.aRateLow, h.aRateHigh, h.dRateLow, h.dRateHigh, h.rRateLow,
      h.rRateHigh, h.sLevelLow, h.sLevelHigh⟩

theorem EnvelopeOk.gateOn {e : Envelope} (h : EnvelopeOk e) : EnvelopeOk e.gateOn :=
  ⟨h.levelLow, h.levelHigh, fun h => by simp at h, h.aRateLow, h.aRateHigh, h.dRateLow, h.dRateHigh, h.rRateLow,
    h.rRateHigh, h.sLevelLow, h.sLevelHigh⟩

theorem EnvelopeOk.configure {e : Envelope} {cfg : Config} {P : Params} (hc : cfg.wf) (hP : P.sustain ≤ 15)
    (h0 : 0 ≤ e.level) (h1 : e.level ≤ 1) (hi : e.stage = .idle → e.level = 0) :
    EnvelopeOk (e.configure cfg P) := by
  obtain ⟨_, ha, ha', hd, hd', -⟩ := hc
  have hs : (P.sustain : Rat) ≤ 15 := by exact_mod_cast hP
  have hs0 : (0 : Rat) ≤ P.sustain := by positivity
  refine ⟨h0, h1, hi, (envRate_range ha ha').1, (envRate_range ha ha').2, (envRate_range hd hd').1,
    (envRate_range hd hd').2, (envRate_range hd hd').1, (envRate_range hd hd').2, ?_, ?_⟩
  · show (0 : Rat) ≤ P.sustain / 15
    positivity
  · show (P.sustain : Rat) / 15 ≤ 1
    rw [div_le_one (by norm_num)]
    exact hs

theorem EnvelopeOk.created {cfg : Config} (hc : cfg.wf) : EnvelopeOk (Envelope.created cfg) :=
  EnvelopeOk.configure hc (by decide) (le_refl _) (by norm_num) fun _ => rfl

end Sys2Proof.Machine
end

