-- ==== Sys2Proof/Laws/State.lean ====
section
/-! SUPPORT. What the named operations leave alone and what they write: one lemma per field and update, so that no later
proof unfolds a record update. -/

namespace Sys2Proof.Machine

/-! ### Reading the pool -/

/-- An active voice stands in a slot of the pool. -/
theorem active_lt {I : Instance} {s : Nat} (h : (I.voice s).active = true) : s < I.voices.length := by
  by_contra hs
  simp [Instance.voice, List.getD, List.getElem?_eq_none (not_lt.1 hs), Voice.absent] at h

/-- Where there is no slot, the voice read is the absent one. -/
theorem voice_of_le {I : Instance} {s : Nat} (h : I.voices.length ≤ s) : I.voice s = Voice.absent := by
  simp [Instance.voice, List.getD, List.getElem?_eq_none h]

theorem voice_setVoice (I : Instance) (s t : Nat) (v : Voice) :
    (I.setVoice s v).voice t = if s = t ∧ t < I.voices.length then v else I.voice t := by
  simp only [Instance.setVoice, Instance.voice, List.getD, List.getElem?_set]
  grind

theorem voice_setVoice_self (I : Instance) {s : Nat} (v : Voice) (h : s < I.voices.length) :
    (I.setVoice s v).voice s = v := by
  simp [voice_setVoice, h]

theorem voice_setVoice_ne (I : Instance) {s t : Nat} (v : Voice) (h : s ≠ t) :
    (I.setVoice s v).voice t = I.voice t := by
  simp [voice_setVoice, h]

/-- A map of the pool read at a slot; `f` fixes the absent voice, as every map of the model does. -/
theorem voice_mapVoices (I : Instance) {f : Voice → Voice} (hf : f Voice.absent = Voice.absent) (s : Nat) :
    (I.mapVoices f).voice s = f (I.voice s) := by
  simp only [Instance.mapVoices, Instance.voice, List.getD, List.getElem?_map]
  cases I.voices[s]? <;> simp [hf]

/-- Two instances with the same voices read the same pool. -/
theorem voice_congr {I J : Instance} (h : I.voices = J.voices) (s : Nat) : I.voice s = J.voice s := by
  simp [Instance.voice, h]

/-- Two instances with the same number of slots have the same slots. -/
theorem slots_congr {I J : Instance} (h : I.voices.length = J.voices.length) : I.slots = J.slots := by
  simp [Instance.slots, h]

@[simp] theorem Voice.deactivate_absent : Voice.absent.deactivate = Voice.absent := rfl

@[simp] theorem voice_deactivate (I : Instance) (s t : Nat) :
    (I.deactivate s).voice t = if s = t then (I.voice s).deactivate else I.voice t := by
  unfold Instance.deactivate
  rw [voice_setVoice]
  by_cases h : s = t
  · subst h
    by_cases hs : s < I.voices.length
    · simp [hs]
    · simp [hs, voice_of_le (not_lt.1 hs)]
  · simp [h]

@[simp] theorem voice_deactivateAll (I : Instance) (s : Nat) :
    I.deactivateAll.voice s = (I.voice s).deactivate :=
  voice_mapVoices I rfl s

/-! ### The number of slots -/

@[simp] theorem length_setVoice (I : Instance) (s : Nat) (v : Voice) :
    (I.setVoice s v).voices.length = I.voices.length := by
  simp [Instance.setVoice]
@[simp] theorem length_mapVoices (I : Instance) (f : Voice → Voice) :
    (I.mapVoices f).voices.length = I.voices.length := by
  simp [Instance.mapVoices]
@[simp] theorem length_deactivate (I : Instance) (s : Nat) : (I.deactivate s).voices.length = I.voices.length :=
  length_setVoice I s _
@[simp] theorem length_deactivateAll (I : Instance) : I.deactivateAll.voices.length = I.voices.length :=
  length_mapVoices I _

/-! ### Fields under updates of the pool -/

@[simp] theorem chip_setVoice (I : Instance) (s : Nat) (v : Voice) : (I.setVoice s v).chip = I.chip := rfl
@[simp] theorem params_setVoice (I : Instance) (s : Nat) (v : Voice) : (I.setVoice s v).params = I.params := rfl
@[simp] theorem presetId_setVoice (I : Instance) (s : Nat) (v : Voice) : (I.setVoice s v).presetId = I.presetId := rfl
@[simp] theorem lfoPhase_setVoice (I : Instance) (s : Nat) (v : Voice) : (I.setVoice s v).lfoPhase = I.lfoPhase := rfl
@[simp] theorem bend_setVoice (I : Instance) (s : Nat) (v : Voice) : (I.setVoice s v).bend = I.bend := rfl
@[simp] theorem ageCounter_setVoice (I : Instance) (s : Nat) (v : Voice) : (I.setVoice s v).ageCounter = I.ageCounter := rfl
@[simp] theorem initPending_setVoice (I : Instance) (s : Nat) (v : Voice) : (I.setVoice s v).initPending = I.initPending := rfl
@[simp] theorem core_setVoice (I : Instance) (s : Nat) (v : Voice) : (I.setVoice s v).core = I.core := rfl
@[simp] theorem writes_setVoice (I : Instance) (s : Nat) (v : Voice) : (I.setVoice s v).writes = I.writes := rfl

@[simp] theorem chip_mapVoices (I : Instance) (f : Voice → Voice) : (I.mapVoices f).chip = I.chip := rfl
@[simp] theorem params_mapVoices (I : Instance) (f : Voice → Voice) : (I.mapVoices f).params = I.params := rfl
@[simp] theorem presetId_mapVoices (I : Instance) (f : Voice → Voice) : (I.mapVoices f).presetId = I.presetId := rfl
@[simp] theorem lfoPhase_mapVoices (I : Instance) (f : Voice → Voice) : (I.mapVoices f).lfoPhase = I.lfoPhase := rfl
@[simp] theorem bend_mapVoices (I : Instance) (f : Voice → Voice) : (I.mapVoices f).bend = I.bend := rfl
@[simp] theorem ageCounter_mapVoices (I : Instance) (f : Voice → Voice) : (I.mapVoices f).ageCounter = I.ageCounter := rfl
@[simp] theorem initPending_mapVoices (I : Instance) (f : Voice → Voice) : (I.mapVoices f).initPending = I.initPending := rfl
@[simp] theorem core_mapVoices (I : Instance) (f : Voice → Voice) : (I.mapVoices f).core = I.core := rfl
@[simp] theorem writes_mapVoices (I : Instance) (f : Voice → Voice) : (I.mapVoices f).writes = I.writes := rfl

@[simp] theorem chip_deactivate (I : Instance) (s : Nat) : (I.deactivate s).chip = I.chip := rfl
@[simp] theorem params_deactivate (I : Instance) (s : Nat) : (I.deactivate s).params = I.params := rfl
@[simp] theorem presetId_deactivate (I : Instance) (s : Nat) : (I.deactivate s).presetId = I.presetId := rfl
@[simp] theorem lfoPhase_deactivate (I : Instance) (s : Nat) : (I.deactivate s).lfoPhase = I.lfoPhase := rfl
@[simp] theorem bend_deactivate (I : Instance) (s : Nat) : (I.deactivate s).bend = I.bend := rfl
@[simp] theorem ageCounter_deactivate (I : Instance) (s : Nat) : (I.deactivate s).ageCounter = I.ageCounter := rfl
@[simp] theorem initPending_deactivate (I : Instance) (s : Nat) : (I.deactivate s).initPending = I.initPending := rfl
@[simp] theorem core_deactivate (I : Instance) (s : Nat) : (I.deactivate s).core = I.core := rfl
@[simp] theorem writes_deactivate (I : Instance) (s : Nat) : (I.deactivate s).writes = I.writes := rfl

@[simp] theorem chip_deactivateAll (I : Instance) : (I.deactivateAll).chip = I.chip := rfl
@[simp] theorem params_deactivateAll (I : Instance) : (I.deactivateAll).params = I.params := rfl
@[simp] theorem presetId_deactivateAll (I : Instance) : (I.deactivateAll).presetId = I.presetId := rfl
@[simp] theorem lfoPhase_deactivateAll (I : Instance) : (I.deactivateAll).lfoPhase = I.lfoPhase := rfl
@[simp] theorem bend_deactivateAll (I : Instance) : (I.deactivateAll).bend = I.bend := rfl
@[simp] theorem ageCounter_deactivateAll (I : Instance) : (I.deactivateAll).ageCounter = I.ageCounter := rfl
@[simp] theorem initPending_deactivateAll (I : Instance) : (I.deactivateAll).initPending = I.initPending := rfl
@[simp] theorem core_deactivateAll (I : Instance) : (I.deactivateAll).core = I.core := rfl
@[simp] theorem writes_deactivateAll (I : Instance) : (I.deactivateAll).writes = I.writes := rfl

/-! ### Fields of a deactivated voice (R55) -/

@[simp] theorem Voice.note_deactivate (v : Voice) : v.deactivate.note = v.note := rfl
@[simp] theorem Voice.velocity_deactivate (v : Voice) : v.deactivate.velocity = v.velocity := rfl
@[simp] theorem Voice.channel_deactivate (v : Voice) : v.deactivate.channel = v.channel := rfl
@[simp] theorem Voice.age_deactivate (v : Voice) : v.deactivate.age = v.age := rfl
@[simp] theorem Voice.triggered_deactivate (v : Voice) : v.deactivate.triggered = v.triggered := rfl
@[simp] theorem Voice.env_deactivate (v : Voice) : v.deactivate.env = v.env := rfl
@[simp] theorem Voice.penv_deactivate (v : Voice) : v.deactivate.penv = v.penv := rfl
@[simp] theorem Voice.active_deactivate (v : Voice) : v.deactivate.active = false := rfl
@[simp] theorem Voice.note_release (v : Voice) : v.release.note = v.note := rfl
@[simp] theorem Voice.velocity_release (v : Voice) : v.release.velocity = v.velocity := rfl
@[simp] theorem Voice.channel_release (v : Voice) : v.release.channel = v.channel := rfl
@[simp] theorem Voice.age_release (v : Voice) : v.release.age = v.age := rfl
@[simp] theorem Voice.triggered_release (v : Voice) : v.release.triggered = v.triggered := rfl
@[simp] theorem Voice.penv_release (v : Voice) : v.release.penv = v.penv := rfl
@[simp] theorem Voice.active_release (v : Voice) : v.release.active = false := rfl
@[simp] theorem Voice.env_release (v : Voice) : v.release.env = v.env.gateOff := rfl

/-! ### Emit, EndFrame, ReadPCM -/

@[simp] theorem chip_emit (cfg : Config) (a : Addr) (v : Byte) (I : Instance) : (I.emit cfg a v).chip = I.chip := rfl
@[simp] theorem params_emit (cfg : Config) (a : Addr) (v : Byte) (I : Instance) : (I.emit cfg a v).params = I.params := rfl
@[simp] theorem presetId_emit (cfg : Config) (a : Addr) (v : Byte) (I : Instance) : (I.emit cfg a v).presetId = I.presetId := rfl
@[simp] theorem voices_emit (cfg : Config) (a : Addr) (v : Byte) (I : Instance) : (I.emit cfg a v).voices = I.voices := rfl
@[simp] theorem lfoPhase_emit (cfg : Config) (a : Addr) (v : Byte) (I : Instance) : (I.emit cfg a v).lfoPhase = I.lfoPhase := rfl
@[simp] theorem bend_emit (cfg : Config) (a : Addr) (v : Byte) (I : Instance) : (I.emit cfg a v).bend = I.bend := rfl
@[simp] theorem ageCounter_emit (cfg : Config) (a : Addr) (v : Byte) (I : Instance) : (I.emit cfg a v).ageCounter = I.ageCounter := rfl
@[simp] theorem initPending_emit (cfg : Config) (a : Addr) (v : Byte) (I : Instance) : (I.emit cfg a v).initPending = I.initPending := rfl
@[simp] theorem writes_emit (cfg : Config) (a : Addr) (v : Byte) (I : Instance) :
    (I.emit cfg a v).writes = I.writes ++ [⟨I.writes.length * cfg.writeStep, a, v⟩] := rfl
@[simp] theorem core_enqueued_emit (cfg : Config) (a : Addr) (v : Byte) (I : Instance) :
    (I.emit cfg a v).core.enqueued = I.core.enqueued ++ [⟨I.writes.length * cfg.writeStep, a, v⟩] := rfl
@[simp] theorem core_regs_emit (cfg : Config) (a : Addr) (v : Byte) (I : Instance) :
    (I.emit cfg a v).core.regs = I.core.regs := rfl
@[simp] theorem core_cycles_emit (cfg : Config) (a : Addr) (v : Byte) (I : Instance) :
    (I.emit cfg a v).core.cycles = I.core.cycles := rfl
@[simp] theorem core_inner_emit (cfg : Config) (a : Addr) (v : Byte) (I : Instance) :
    (I.emit cfg a v).core.inner = I.core.inner := rfl

@[simp] theorem emitAll_nil (cfg : Config) (I : Instance) : I.emitAll cfg [] = I := rfl
@[simp] theorem emitAll_cons (cfg : Config) (w : Addr × Byte) (ws : List (Addr × Byte)) (I : Instance) :
    I.emitAll cfg (w :: ws) = (I.emit cfg w.1 w.2).emitAll cfg ws := rfl
theorem emitAll_append (cfg : Config) (ws xs : List (Addr × Byte)) (I : Instance) :
    I.emitAll cfg (ws ++ xs) = (I.emitAll cfg ws).emitAll cfg xs := by
  simp [Instance.emitAll, List.foldl_append]

/-- The records a list of writes becomes when the first of them is the k-th write of the block (R338). -/
def stamp (cfg : Config) (k : Nat) : List (Addr × Byte) → List WriteRecord
  | [] => []
  | w :: ws => ⟨k * cfg.writeStep, w.1, w.2⟩ :: stamp cfg (k + 1) ws

@[simp] theorem length_stamp (cfg : Config) (k : Nat) (ws : List (Addr × Byte)) :
    (stamp cfg k ws).length = ws.length := by
  induction ws generalizing k with
  | nil => rfl
  | cons w ws ih => simp [stamp, ih]

theorem stamp_append (cfg : Config) (k : Nat) (ws xs : List (Addr × Byte)) :
    stamp cfg k (ws ++ xs) = stamp cfg k ws ++ stamp cfg (k + ws.length) xs := by
  induction ws generalizing k with
  | nil => rfl
  | cons w ws ih => simp [stamp, ih, Nat.add_assoc, Nat.add_comm 1]

theorem mem_stamp {cfg : Config} {k : Nat} {ws : List (Addr × Byte)} {r : WriteRecord} (h : r ∈ stamp cfg k ws) :
    (r.addr, r.value) ∈ ws := by
  induction ws generalizing k with
  | nil => simp [stamp] at h
  | cons w ws ih =>
    rcases List.mem_cons.1 (by simpa [stamp] using h) with rfl | h'
    · simp
    · exact List.mem_cons_of_mem _ (ih h')

/-- The records of a stamped list are the list's writes, in order. -/
theorem map_stamp (cfg : Config) (k : Nat) (ws : List (Addr × Byte)) :
    (stamp cfg k ws).map (fun r => (r.addr, r.value)) = ws := by
  induction ws generalizing k with
  | nil => rfl
  | cons w ws ih => simp [stamp, ih]

/-- The times of a stamped list: `k, k + 1, …` times WRITE_STEP (R338). -/
theorem times_stamp (cfg : Config) (k : Nat) (ws : List (Addr × Byte)) :
    (stamp cfg k ws).map WriteRecord.time = (List.range ws.length).map fun j => (k + j) * cfg.writeStep := by
  induction ws generalizing k with
  | nil => rfl
  | cons w ws ih =>
    simp only [stamp, List.map_cons, ih, List.length_cons, List.range_succ_eq_map, List.map_map]
    refine congrArg₂ List.cons (by simp) (List.map_congr_left fun j _ => ?_)
    simp only [Function.comp_apply]
    congr 1
    omega

/-- What emitting a list does to the write list. -/
@[simp] theorem writes_emitAll (cfg : Config) (ws : List (Addr × Byte)) (I : Instance) :
    (I.emitAll cfg ws).writes = I.writes ++ stamp cfg I.writes.length ws := by
  induction ws generalizing I with
  | nil => simp [stamp]
  | cons w ws ih => simp [ih, stamp]

/-- What emitting a list hands to the core. -/
@[simp] theorem core_enqueued_emitAll (cfg : Config) (ws : List (Addr × Byte)) (I : Instance) :
    (I.emitAll cfg ws).core.enqueued = I.core.enqueued ++ stamp cfg I.writes.length ws := by
  induction ws generalizing I with
  | nil => simp [stamp]
  | cons w ws ih => simp [ih, stamp]

@[simp] theorem chip_emitAll (cfg : Config) (ws : List (Addr × Byte)) (I : Instance) :
    (I.emitAll cfg ws).chip = I.chip := by
  induction ws generalizing I with
  | nil => rfl
  | cons w ws ih => simp [ih]
@[simp] theorem params_emitAll (cfg : Config) (ws : List (Addr × Byte)) (I : Instance) :
    (I.emitAll cfg ws).params = I.params := by
  induction ws generalizing I with
  | nil => rfl
  | cons w ws ih => simp [ih]
@[simp] theorem presetId_emitAll (cfg : Config) (ws : List (Addr × Byte)) (I : Instance) :
    (I.emitAll cfg ws).presetId = I.presetId := by
  induction ws generalizing I with
  | nil => rfl
  | cons w ws ih => simp [ih]
@[simp] theorem voices_emitAll (cfg : Config) (ws : List (Addr × Byte)) (I : Instance) :
    (I.emitAll cfg ws).voices = I.voices := by
  induction ws generalizing I with
  | nil => rfl
  | cons w ws ih => simp [ih]
@[simp] theorem lfoPhase_emitAll (cfg : Config) (ws : List (Addr × Byte)) (I : Instance) :
    (I.emitAll cfg ws).lfoPhase = I.lfoPhase := by
  induction ws generalizing I with
  | nil => rfl
  | cons w ws ih => simp [ih]
@[simp] theorem bend_emitAll (cfg : Config) (ws : List (Addr × Byte)) (I : Instance) :
    (I.emitAll cfg ws).bend = I.bend := by
  induction ws generalizing I with
  | nil => rfl
  | cons w ws ih => simp [ih]
@[simp] theorem ageCounter_emitAll (cfg : Config) (ws : List (Addr × Byte)) (I : Instance) :
    (I.emitAll cfg ws).ageCounter = I.ageCounter := by
  induction ws generalizing I with
  | nil => rfl
  | cons w ws ih => simp [ih]
@[simp] theorem initPending_emitAll (cfg : Config) (ws : List (Addr × Byte)) (I : Instance) :
    (I.emitAll cfg ws).initPending = I.initPending := by
  induction ws generalizing I with
  | nil => rfl
  | cons w ws ih => simp [ih]
@[simp] theorem core_regs_emitAll (cfg : Config) (ws : List (Addr × Byte)) (I : Instance) :
    (I.emitAll cfg ws).core.regs = I.core.regs := by
  induction ws generalizing I with
  | nil => rfl
  | cons w ws ih => simp [ih]
@[simp] theorem core_cycles_emitAll (cfg : Config) (ws : List (Addr × Byte)) (I : Instance) :
    (I.emitAll cfg ws).core.cycles = I.core.cycles := by
  induction ws generalizing I with
  | nil => rfl
  | cons w ws ih => simp [ih]
@[simp] theorem core_inner_emitAll (cfg : Config) (ws : List (Addr × Byte)) (I : Instance) :
    (I.emitAll cfg ws).core.inner = I.core.inner := by
  induction ws generalizing I with
  | nil => rfl
  | cons w ws ih => simp [ih]

@[simp] theorem chip_endFrame (c : Nat) (I : Instance) : (I.endFrame c).chip = I.chip := rfl
@[simp] theorem params_endFrame (c : Nat) (I : Instance) : (I.endFrame c).params = I.params := rfl
@[simp] theorem presetId_endFrame (c : Nat) (I : Instance) : (I.endFrame c).presetId = I.presetId := rfl
@[simp] theorem voices_endFrame (c : Nat) (I : Instance) : (I.endFrame c).voices = I.voices := rfl
@[simp] theorem lfoPhase_endFrame (c : Nat) (I : Instance) : (I.endFrame c).lfoPhase = I.lfoPhase := rfl
@[simp] theorem bend_endFrame (c : Nat) (I : Instance) : (I.endFrame c).bend = I.bend := rfl
@[simp] theorem ageCounter_endFrame (c : Nat) (I : Instance) : (I.endFrame c).ageCounter = I.ageCounter := rfl
@[simp] theorem initPending_endFrame (c : Nat) (I : Instance) : (I.endFrame c).initPending = I.initPending := rfl
@[simp] theorem writes_endFrame (c : Nat) (I : Instance) : (I.endFrame c).writes = I.writes := rfl
@[simp] theorem core_enqueued_endFrame (c : Nat) (I : Instance) : (I.endFrame c).core.enqueued = [] := rfl
@[simp] theorem core_regs_endFrame (c : Nat) (I : Instance) :
    (I.endFrame c).core.regs = Memory.apply I.core.regs I.core.enqueued := rfl
@[simp] theorem core_cycles_endFrame (c : Nat) (I : Instance) :
    (I.endFrame c).core.cycles = I.core.cycles + c := rfl

@[simp] theorem chip_setInner (n : Nat) (I : Instance) : (I.setInner n).chip = I.chip := rfl
@[simp] theorem params_setInner (n : Nat) (I : Instance) : (I.setInner n).params = I.params := rfl
@[simp] theorem presetId_setInner (n : Nat) (I : Instance) : (I.setInner n).presetId = I.presetId := rfl
@[simp] theorem voices_setInner (n : Nat) (I : Instance) : (I.setInner n).voices = I.voices := rfl
@[simp] theorem lfoPhase_setInner (n : Nat) (I : Instance) : (I.setInner n).lfoPhase = I.lfoPhase := rfl
@[simp] theorem bend_setInner (n : Nat) (I : Instance) : (I.setInner n).bend = I.bend := rfl
@[simp] theorem ageCounter_setInner (n : Nat) (I : Instance) : (I.setInner n).ageCounter = I.ageCounter := rfl
@[simp] theorem initPending_setInner (n : Nat) (I : Instance) : (I.setInner n).initPending = I.initPending := rfl
@[simp] theorem writes_setInner (n : Nat) (I : Instance) : (I.setInner n).writes = I.writes := rfl
@[simp] theorem core_enqueued_setInner (n : Nat) (I : Instance) : (I.setInner n).core.enqueued = I.core.enqueued := rfl
@[simp] theorem core_regs_setInner (n : Nat) (I : Instance) : (I.setInner n).core.regs = I.core.regs := rfl
@[simp] theorem core_cycles_setInner (n : Nat) (I : Instance) : (I.setInner n).core.cycles = I.core.cycles := rfl

/-- ReadPCM changes only the core's own state. -/
theorem readPcm_snd (n : Nat) (I : Instance) : ∃ k, (I.readPcm n).2 = I.setInner k := by
  unfold Instance.readPcm
  split
  · exact ⟨_, rfl⟩
  · exact ⟨_, rfl⟩

/-- ReadPCM delivers at most `n` frames (R340 (b)). -/
theorem readPcm_length (n : Nat) (I : Instance) : (I.readPcm n).1.length ≤ n := by
  unfold Instance.readPcm
  split <;> simp

/-! ### The step from a command to an outcome -/

@[simp] theorem onInstance_none (f : Config → Instance → Instance) {s : State} (h : s.inst = none) :
    onInstance f s = .next s := by
  simp [onInstance, h]

@[simp] theorem onInstance_some (f : Config → Instance → Instance) {s : State} {I : Instance} (h : s.inst = some I) :
    onInstance f s = .next { s with inst := some (f s.cfg I) } := by
  simp [onInstance, h]

/-- All an `onInstance` command can do: nothing on ⊥, one update of the instance otherwise. -/
theorem onInstance_cases {f : Config → Instance → Instance} {s t : State} (h : onInstance f s = .next t) :
    (s.inst = none ∧ t = s) ∨ (∃ I, s.inst = some I ∧ t = { s with inst := some (f s.cfg I) }) := by
  cases hi : s.inst with
  | none => exact .inl ⟨rfl, by simpa [hi] using h.symm⟩
  | some I => exact .inr ⟨I, rfl, by simpa [hi] using h.symm⟩

/-- All a step can do: hold the state, execute a decoded delivery, or refuse a pattern that is no row. -/
theorem step_cases (s : State) :
    (s.inbox = [] ∧ step s = .next s) ∨
    (∃ d rest i, s.inbox = d :: rest ∧ decode d.packet = .ok i ∧ step s = exec i (s.take d rest)) ∨
    (∃ d rest a, s.inbox = d :: rest ∧ decode d.packet = .error (.unknownRegister a) ∧
      step s = .refused .unknownRegister) := by
  cases hin : s.inbox with
  | nil => exact .inl ⟨rfl, by simp only [step, hin]⟩
  | cons d rest =>
    cases hd : decode d.packet with
    | ok i => exact .inr (.inl ⟨d, rest, i, rfl, hd, by simp only [step, hin, hd]⟩)
    | error e =>
      cases e with
      | unknownRegister a => exact .inr (.inr ⟨d, rest, a, rfl, hd, by simp only [step, hin, hd]⟩)

@[simp] theorem cfg_take (d : Delivery) (rest : List Delivery) (s : State) : (s.take d rest).cfg = s.cfg := rfl
@[simp] theorem inst_take (d : Delivery) (rest : List Delivery) (s : State) : (s.take d rest).inst = s.inst := rfl
@[simp] theorem out_take (d : Delivery) (rest : List Delivery) (s : State) : (s.take d rest).out = s.out := rfl
@[simp] theorem ret_take (d : Delivery) (rest : List Delivery) (s : State) : (s.take d rest).ret = s.ret := rfl
@[simp] theorem inbox_take (d : Delivery) (rest : List Delivery) (s : State) : (s.take d rest).inbox = rest := rfl
@[simp] theorem allocOk_take (d : Delivery) (rest : List Delivery) (s : State) : (s.take d rest).allocOk = d.allocOk := rfl

end Sys2Proof.Machine
end

