-- ==== Sys2Proof/Laws/Allocator.lean ====
section
/-! SUPPORT. What the allocator's shared operations can do: the searches over slots and channels, the selectors and
VOICE_INIT, each in one lemma that says everything. -/

namespace Sys2Proof.Machine

/-! ### Searches -/

@[simp] theorem mem_slots {I : Instance} {s : Nat} : s ∈ I.slots ↔ s < I.voices.length := by
  simp [Instance.slots]

@[simp] theorem mem_channels {cfg : Config} {c : Fin 4} : c ∈ channels cfg ↔ c.val < cfg.nChannels := by
  have h : c ∈ ([0, 1, 2, 3] : List (Fin 4)) := by revert c; decide
  simp only [channels, List.mem_filter, h, decide_eq_true_eq, true_and]

theorem channels_sorted (cfg : Config) : (channels cfg).Pairwise (· < ·) :=
  List.Pairwise.filter _ (by decide)

/-- The first element of a sorted list with a property. -/
theorem find?_sorted {α : Type} [LinearOrder α] {l : List α} (hl : l.Pairwise (· < ·)) {p : α → Bool} {s : α}
    (h : l.find? p = some s) : p s = true ∧ ∀ t ∈ l, t < s → p t = false := by
  induction l with
  | nil => simp at h
  | cons a l ih =>
    obtain ⟨ha, hl'⟩ := List.pairwise_cons.1 hl
    rw [List.find?_cons] at h
    cases hp : p a with
    | true =>
      simp only [hp, Option.some.injEq] at h
      subst h
      refine ⟨hp, fun t ht hlt => ?_⟩
      rcases List.mem_cons.1 ht with rfl | ht
      · exact absurd hlt (lt_irrefl _)
      · exact absurd hlt (lt_asymm (ha t ht))
    | false =>
      simp only [hp] at h
      refine ⟨(ih hl' h).1, fun t ht hlt => ?_⟩
      rcases List.mem_cons.1 ht with rfl | ht
      · exact hp
      · exact (ih hl' h).2 t ht hlt

theorem find?_slots {I : Instance} {p : Nat → Bool} {s : Nat} (h : I.slots.find? p = some s) :
    s < I.voices.length ∧ p s = true ∧ ∀ t < s, p t = false := by
  have hs := mem_slots.1 (List.mem_of_find?_eq_some h)
  have := find?_sorted List.pairwise_lt_range h
  exact ⟨hs, this.1, fun t ht => this.2 t (mem_slots.2 (ht.trans hs)) ht⟩

theorem find?_channels {cfg : Config} {p : Fin 4 → Bool} {c : Fin 4} (h : (channels cfg).find? p = some c) :
    c.val < cfg.nChannels ∧ p c = true ∧ ∀ d < c, p d = false := by
  have hc := mem_channels.1 (List.mem_of_find?_eq_some h)
  have := find?_sorted (channels_sorted cfg) h
  exact ⟨hc, this.1, fun d hd => this.2 d (mem_channels.2 (lt_trans hd hc)) hd⟩

theorem find?_slots_none {I : Instance} {p : Nat → Bool} (h : I.slots.find? p = none) {s : Nat}
    (hs : s < I.voices.length) : p s = false := by
  simpa using List.find?_eq_none.1 h s (mem_slots.2 hs)

theorem find?_channels_none {cfg : Config} {p : Fin 4 → Bool} (h : (channels cfg).find? p = none) {c : Fin 4}
    (hc : c.val < cfg.nChannels) : p c = false := by
  simpa using List.find?_eq_none.1 h c (mem_channels.2 hc)

/-! ### Predicates (R230) -/

theorem busy_iff (I : Instance) (c : Fin 4) :
    I.busy c = true ↔ ∃ s, (I.voice s).active = true ∧ (I.voice s).channel = c := by
  simp only [Instance.busy, List.any_eq_true, mem_slots, Bool.and_eq_true, beq_iff_eq]
  exact ⟨fun ⟨s, _, h⟩ => ⟨s, h⟩, fun ⟨s, h⟩ => ⟨s, active_lt h.1, h⟩⟩

theorem busy_false_iff (I : Instance) (c : Fin 4) :
    I.busy c = false ↔ ∀ s, (I.voice s).active = true → (I.voice s).channel ≠ c := by
  rw [← Bool.not_eq_true, busy_iff]
  simp

theorem enabled_lt {cfg : Config} {P : Params} {c : Fin 4} (h : enabled cfg P c = true) : c.val < cfg.nChannels := by
  simp only [enabled, Bool.and_eq_true, decide_eq_true_eq] at h
  exact h.1

theorem free_iff (cfg : Config) (I : Instance) (c : Fin 4) :
    I.free cfg c = true ↔ enabled cfg I.params c = true ∧ I.busy c = false := by
  simp [Instance.free]

theorem maskEmpty_iff (cfg : Config) (P : Params) : maskEmpty cfg P = true ↔ ∀ c, enabled cfg P c = false := by
  simp only [maskEmpty, Bool.not_eq_true', List.any_eq_false, mem_channels, Bool.not_eq_true]
  refine ⟨fun h c => ?_, fun h c _ => h c⟩
  by_cases hc : c.val < cfg.nChannels
  · exact h c hc
  · simp [enabled, hc]

theorem anyActive_iff (I : Instance) : I.anyActive = true ↔ ∃ s, (I.voice s).active = true := by
  simp only [Instance.anyActive, List.any_eq_true, mem_slots]
  exact ⟨fun ⟨s, _, h⟩ => ⟨s, h⟩, fun ⟨s, h⟩ => ⟨s, active_lt h, h⟩⟩

/-! ### oldest (R231) -/

theorem oldest_fold (I : Instance) (p : Voice → Bool) (l : List Nat) (best : Option Nat) :
    match l.foldl (fun best s => if p (I.voice s) then I.older best s else best) best with
    | none => best = none ∧ ∀ t ∈ l, p (I.voice t) = false
    | some b => (best = some b ∨ p (I.voice b) = true) ∧
        (∀ b0, best = some b0 → (I.voice b).age ≤ (I.voice b0).age) ∧
        ∀ t ∈ l, p (I.voice t) = true → (I.voice b).age ≤ (I.voice t).age := by
  induction l generalizing best with
  | nil => cases best <;> simp
  | cons a l ih =>
    rw [List.foldl_cons]
    have := ih (if p (I.voice a) then I.older best a else best)
    revert this
    cases l.foldl (fun best s => if p (I.voice s) then I.older best s else best)
      (if p (I.voice a) then I.older best a else best) with
    | none =>
      cases hp : p (I.voice a) <;> cases best <;> simp [Instance.older, hp]
      split <;> simp
    | some b =>
      cases hp : p (I.voice a) <;> cases best <;> simp [Instance.older, hp] <;> grind

/-- oldest(S) is a slot of S whose age is the least in S. -/
theorem oldest_some {I : Instance} {p : Voice → Bool} {s : Nat} (h : I.oldest p = some s) :
    p (I.voice s) = true ∧ ∀ t < I.voices.length, p (I.voice t) = true → (I.voice s).age ≤ (I.voice t).age := by
  have := oldest_fold I p I.slots none
  rw [show I.slots.foldl _ none = some s from h] at this
  exact ⟨by simpa using this.1, fun t ht => this.2.2 t (mem_slots.2 ht)⟩

/-- There is no oldest slot only of the empty set. -/
theorem oldest_none {I : Instance} {p : Voice → Bool} (h : I.oldest p = none) {t : Nat} (ht : t < I.voices.length) :
    p (I.voice t) = false := by
  have := oldest_fold I p I.slots none
  rw [show I.slots.foldl _ none = none from h] at this
  exact this.2 t (mem_slots.2 ht)

/-- oldest(S) is a slot. -/
theorem oldest_lt {I : Instance} {p : Voice → Bool} {s : Nat} (h : I.oldest p = some s) : s < I.voices.length := by
  have key : ∀ (l : List Nat) (best : Option Nat), (∀ b, best = some b → b < I.voices.length) →
      (∀ t ∈ l, t < I.voices.length) → ∀ b,
      l.foldl (fun best s => if p (I.voice s) then I.older best s else best) best = some b → b < I.voices.length := by
    intro l
    induction l with
    | nil => intro best hb _ b; exact hb b
    | cons a l ih =>
      intro best hb hl b
      rw [List.foldl_cons]
      refine ih _ (fun b' hb' => ?_) (fun t ht => hl t (List.mem_cons_of_mem _ ht)) b
      have ha := hl a (by simp)
      cases best with
      | none => cases hp : p (I.voice a) <;> simp [hp, Instance.older] at hb'; omega
      | some c =>
        have := hb c rfl
        simp only [Instance.older] at hb'
        split at hb'
        · split at hb' <;> simp only [Option.some.injEq] at hb' <;> omega
        · simp only [Option.some.injEq] at hb'; omega
  exact key I.slots none (by simp) (fun t ht => mem_slots.1 ht) s h

/-! ### Selectors (R233..R236) -/

/-- All SLOT_SELECT can do on a pool that has a slot: the least inactive slot, or a slot of least age, deactivated, when
every slot is active. -/
theorem slotSelect_cases {I : Instance} (hI : 0 < I.voices.length) :
    (∃ s, I.slotSelect = (s, I) ∧ s < I.voices.length ∧ (I.voice s).active = false ∧
      ∀ t < s, (I.voice t).active = true) ∨
    (∃ s, I.slotSelect = (s, I.deactivate s) ∧ s < I.voices.length ∧
      (∀ t < I.voices.length, (I.voice t).active = true) ∧
      ∀ t < I.voices.length, (I.voice s).age ≤ (I.voice t).age) := by
  unfold Instance.slotSelect
  cases hf : I.freeSlot with
  | some s =>
    have := find?_slots hf
    exact .inl ⟨s, rfl, this.1, by simpa using this.2.1, fun t ht => by simpa using this.2.2 t ht⟩
  | none =>
    have ha : ∀ t < I.voices.length, (I.voice t).active = true := fun t ht => by simpa using find?_slots_none hf ht
    cases ho : I.oldest fun _ => true with
    | none => exact absurd (oldest_none ho hI) (by simp)
    | some s => exact .inr ⟨s, rfl, oldest_lt ho, ha, fun t ht => (oldest_some ho).2 t ht rfl⟩

/-- SLOT_SELECT changes nothing but a voice it deactivates, on any pool. -/
theorem slotSelect_snd (I : Instance) : I.slotSelect.2 = I ∨ ∃ s, I.slotSelect.2 = I.deactivate s := by
  unfold Instance.slotSelect
  cases I.freeSlot with
  | some s => exact .inl rfl
  | none => exact .inr ⟨_, rfl⟩

/-- All a channel steal can do: the oldest voice of a set is deactivated and its channel taken. -/
theorem stealChannel_some {I J : Instance} {p : Voice → Bool} {c : Fin 4} (h : I.stealChannel p = some (c, J)) :
    ∃ v, J = I.deactivate v ∧ c = (I.voice v).channel ∧ p (I.voice v) = true ∧
      ∀ t < I.voices.length, p (I.voice t) = true → (I.voice v).age ≤ (I.voice t).age := by
  unfold Instance.stealChannel at h
  cases ho : I.oldest p with
  | none => simp [ho] at h
  | some v =>
    simp only [ho, Option.map_some, Option.some.injEq, Prod.mk.injEq] at h
    exact ⟨v, h.2.symm, h.1.symm, oldest_some ho⟩

/-- All a channel selector can do: nothing, a channel no active voice has, or the channel of an active voice it
deactivates. In Lead mode it is asked after every voice was deactivated. -/
theorem channelSelect_cases {cfg : Config} {n : Nat} {I J : Instance} {c : Fin 4}
    (hl : I.params.mode = .lead → ∀ s, (I.voice s).active = false) (h : I.channelSelect cfg n = some (c, J)) :
    (J = I ∧ enabled cfg I.params c = true ∧ I.busy c = false) ∨
    (∃ v, J = I.deactivate v ∧ c = (I.voice v).channel ∧ (I.voice v).active = true) := by
  unfold Instance.channelSelect at h
  cases hm : I.params.mode with
  | lead =>
    simp only [hm, Instance.channelSelectLead] at h
    cases hf : (channels cfg).find? (enabled cfg I.params) with
    | none => simp [hf] at h
    | some d =>
      simp only [hf, Option.map_some, Option.some.injEq, Prod.mk.injEq] at h
      obtain ⟨rfl, rfl⟩ := h
      exact .inl ⟨rfl, (find?_channels hf).2.1, (busy_false_iff _ _).2 fun s hs => by simp [hl hm s] at hs⟩
  | locked =>
    simp only [hm, Instance.channelSelectLocked] at h
    split at h
    · simp at h
    · cases hf : (channels cfg).find? (I.free cfg) with
      | some d =>
        simp only [hf, Option.some.injEq, Prod.mk.injEq] at h
        obtain ⟨rfl, rfl⟩ := h
        exact .inl ⟨rfl, (free_iff _ _ _).1 (find?_channels hf).2.1⟩
      | none =>
        simp only [hf] at h
        obtain ⟨v, hJ, hc, hp, -⟩ := stealChannel_some h
        exact .inr ⟨v, hJ, hc, by simp at hp; exact hp.1⟩
  | auto =>
    simp only [hm, Instance.channelSelectAuto] at h
    split at h
    · simp at h
    · split at h
      · rename_i hn
        simp only [Option.some.injEq, Prod.mk.injEq] at h
        obtain ⟨rfl, rfl⟩ := h
        exact .inl ⟨rfl, (free_iff _ _ _).1 hn.2⟩
      · cases hf : (channels cfg).find? (I.free cfg) with
        | some d =>
          simp only [hf, Option.some.injEq, Prod.mk.injEq] at h
          obtain ⟨rfl, rfl⟩ := h
          exact .inl ⟨rfl, (free_iff _ _ _).1 (find?_channels hf).2.1⟩
        | none =>
          simp only [hf] at h
          obtain ⟨v, hJ, hc, hp, -⟩ := stealChannel_some h
          exact .inr ⟨v, hJ, hc, hp⟩

/-! ### VOICE_INIT (R237) -/

@[simp] theorem chip_voiceInit (cfg : Config) (s : Nat) (n v : Nat) (c : Fin 4) (I : Instance) :
    (I.voiceInit cfg s n v c).chip = I.chip := rfl
@[simp] theorem params_voiceInit (cfg : Config) (s : Nat) (n v : Nat) (c : Fin 4) (I : Instance) :
    (I.voiceInit cfg s n v c).params = I.params := rfl
@[simp] theorem presetId_voiceInit (cfg : Config) (s : Nat) (n v : Nat) (c : Fin 4) (I : Instance) :
    (I.voiceInit cfg s n v c).presetId = I.presetId := rfl
@[simp] theorem lfoPhase_voiceInit (cfg : Config) (s : Nat) (n v : Nat) (c : Fin 4) (I : Instance) :
    (I.voiceInit cfg s n v c).lfoPhase = I.lfoPhase := rfl
@[simp] theorem bend_voiceInit (cfg : Config) (s : Nat) (n v : Nat) (c : Fin 4) (I : Instance) :
    (I.voiceInit cfg s n v c).bend = I.bend := rfl
@[simp] theorem initPending_voiceInit (cfg : Config) (s : Nat) (n v : Nat) (c : Fin 4) (I : Instance) :
    (I.voiceInit cfg s n v c).initPending = I.initPending := rfl
@[simp] theorem core_voiceInit (cfg : Config) (s : Nat) (n v : Nat) (c : Fin 4) (I : Instance) :
    (I.voiceInit cfg s n v c).core = I.core := rfl
@[simp] theorem writes_voiceInit (cfg : Config) (s : Nat) (n v : Nat) (c : Fin 4) (I : Instance) :
    (I.voiceInit cfg s n v c).writes = I.writes := rfl
@[simp] theorem ageCounter_voiceInit (cfg : Config) (s : Nat) (n v : Nat) (c : Fin 4) (I : Instance) :
    (I.voiceInit cfg s n v c).ageCounter = I.ageCounter + 1 := rfl

@[simp] theorem length_voiceInit (cfg : Config) (s : Nat) (n v : Nat) (c : Fin 4) (I : Instance) :
    (I.voiceInit cfg s n v c).voices.length = I.voices.length := length_setVoice I s _

/-- A slot whose voice VOICE_INIT starts. -/
theorem voice_voiceInit_self (cfg : Config) {s : Nat} (n v : Nat) (c : Fin 4) (I : Instance)
    (hs : s < I.voices.length) :
    (I.voiceInit cfg s n v c).voice s =
      { active := true, note := n, velocity := v, channel := c, age := I.ageCounter + 1, triggered := false
        env := ((I.voice s).env.configure cfg I.params).gateOn, penv := (I.params.penvDepth : Rat) } := by
  show (I.setVoice s _).voice s = _
  rw [voice_setVoice_self I _ hs]
  rfl

theorem voice_voiceInit_ne (cfg : Config) {s t : Nat} (n v : Nat) (c : Fin 4) (I : Instance) (h : s ≠ t) :
    (I.voiceInit cfg s n v c).voice t = I.voice t :=
  voice_setVoice_ne I _ h

/-! ### Releases (R240, R241) and unison (R239) -/

theorem voice_noteOffRelease (I : Instance) (n : Nat) (s : Nat) :
    (I.noteOffRelease n).voice s =
      if (I.voice s).active && (I.voice s).note == n then (I.voice s).release else I.voice s :=
  voice_mapVoices I (by simp [Voice.absent]) s

theorem voice_allVoicesOff (I : Instance) (s : Nat) :
    I.allVoicesOff.voice s = if (I.voice s).active then (I.voice s).release else I.voice s :=
  voice_mapVoices I (by simp [Voice.absent]) s

theorem voice_leaveChannel1 (I : Instance) (s : Nat) :
    (I.mapVoices Voice.leaveChannel1).voice s =
      if (I.voice s).active && (I.voice s).channel == 1 then (I.voice s).deactivate else I.voice s :=
  voice_mapVoices I rfl s

@[simp] theorem length_noteOffRelease (I : Instance) (n : Nat) :
    (I.noteOffRelease n).voices.length = I.voices.length := length_mapVoices I _

@[simp] theorem length_allVoicesOff (I : Instance) : I.allVoicesOff.voices.length = I.voices.length :=
  length_mapVoices I _

end Sys2Proof.Machine
end

