-- ==== Sys2Proof/Laws/Decode.lean ====
section
/-! SUPPORT. The bit fields of the packets the encoder lays out: what the decoder's extractions read from them. -/

namespace Sys2Proof

/-! ### Register-write patterns (R123) -/

theorem record_addr (a : Addr) (v : Byte) : (a ++ v).extractLsb' 8 16 = a := by
  apply BitVec.eq_of_getLsbD_eq
  intro i hi
  simp only [BitVec.getLsbD_extractLsb', BitVec.getLsbD_append, hi]
  simp

theorem record_value (a : Addr) (v : Byte) : (a ++ v).extractLsb' 0 8 = v := by
  apply BitVec.eq_of_getLsbD_eq
  intro i hi
  simp only [BitVec.getLsbD_extractLsb', BitVec.getLsbD_append, hi]
  simp [hi]

/-- A pattern decodes to its address's row with its value. -/
theorem decodeRecord_append (a : Addr) (v : Byte) {i : Instr} (h : recordRow a.toNat v = some i) :
    decodeRecord (a ++ v) = .ok i := by
  simp only [decodeRecord, record_addr, record_value, h]

/-! ### MIDI words (R110, R112) -/

/-- Every bit of a MIDI word. -/
theorem midiWord_getLsbD (s a b : Byte) (i : Nat) :
    (midiWord s a b).getLsbD i =
      if i < 8 then b.getLsbD i else if i < 16 then a.getLsbD (i - 8)
      else if i < 24 then s.getLsbD (i - 16) else false := by
  unfold midiWord
  simp only [BitVec.getLsbD_append]
  grind

theorem midiWord_kind (s a b : Byte) : (midiWord s a b).extractLsb' 24 8 = 0 := by
  apply BitVec.eq_of_getLsbD_eq
  intro i hi
  simp only [BitVec.getLsbD_extractLsb', midiWord_getLsbD, hi]
  grind

/-- A field that lies within one byte of a MIDI word is that field of the byte. -/
theorem midiWord_field (s a b : Byte) (n k : Nat) (h : n + k ≤ 8) :
    (midiWord s a b).extractLsb' (16 + n) k = s.extractLsb' n k ∧
    (midiWord s a b).extractLsb' (8 + n) k = a.extractLsb' n k ∧
    (midiWord s a b).extractLsb' n k = b.extractLsb' n k := by
  refine ⟨?_, ?_, ?_⟩ <;> apply BitVec.eq_of_getLsbD_eq <;> intro i hi <;>
    simp only [BitVec.getLsbD_extractLsb', midiWord_getLsbD, hi] <;> grind

/-- A MIDI word is decoded by `decodeMidi`. -/
theorem decode_midiWord (s a b : Byte) :
    decode (.command (midiWord s a b)) = .ok (decodeMidi (midiWord s a b)) := by
  simp [decode, decodeCommand, midiWord_kind]

/-- What `decodeMidi` reads, in terms of the three bytes of the message. -/
theorem decodeMidi_midiWord (s a b : Byte) :
    decodeMidi (midiWord s a b) =
      (let status : BitVec 7 := s.extractLsb' 0 7
       let d1 : BitVec 7 := a.extractLsb' 0 7
       let d2 : BitVec 7 := b.extractLsb' 0 7
       let ch : BitVec 4 := s.extractLsb' 0 4
       if !s.getLsbD 7 then .midiMalformedStatus status a b
       else if a.getLsbD 7 then .midiMalformedData1 status d1 b
       else if b.getLsbD 7 && threeByteType (midiType status) then .midiMalformedData2 status d1 d2
       else if midiType status = 0 then .noteOff ch d1 d2
       else if midiType status = 1 then (if d2 = 0 then .noteOnV0 ch d1 else .noteOn ch d1 d2)
       else if midiType status = 2 then .polyAt ch d1 d2
       else if midiType status = 3 then
         (if d1 = 1 then .ccModwheel ch d2 else if d1 = 123 then .ccAllNotesOff ch d2 else .ccOther ch d1 d2)
       else if midiType status = 4 then .progChange ch d1 b
       else if midiType status = 5 then .chanPressure ch d1 b
       else if midiType status = 6 then .pitchBend ch (d2 ++ d1)
       else .midiSystem ch d1 b) := by
  have whole : ∀ x : Byte, x.extractLsb' 0 8 = x := fun x => by simp
  have h7 := midiWord_field s a b 0 7 (by omega)
  have h8 := midiWord_field s a b 0 8 (by omega)
  have h4 := (midiWord_field s a b 0 4 (by omega)).1
  simp only [Nat.add_zero, whole] at h7 h8 h4
  unfold decodeMidi
  simp only [h7.1, h7.2.1, h7.2.2, h8.2.1, h8.2.2, h4, midiWord_getLsbD, Nat.reduceLT, if_true, if_false,
    Nat.reduceSub]

/-! ### Bytes made of a top bit and seven bits, or of two nibbles -/

theorem low_seven (b : BitVec 1) (x : BitVec 7) : (b ++ x).extractLsb' 0 7 = x := by
  apply BitVec.eq_of_getLsbD_eq
  intro i hi
  simp only [BitVec.getLsbD_extractLsb', BitVec.getLsbD_append, hi]
  simp [hi]

theorem top_bit (b : BitVec 1) (x : BitVec 7) : (b ++ x).getLsbD 7 = b.getLsbD 0 := by
  simp only [BitVec.getLsbD_append]
  simp

theorem nibble_channel (t ch : BitVec 4) : (t ++ ch).extractLsb' 0 4 = ch := by
  apply BitVec.eq_of_getLsbD_eq
  intro i hi
  simp only [BitVec.getLsbD_extractLsb', BitVec.getLsbD_append, hi]
  simp [hi]

theorem nibble_top (t ch : BitVec 4) : (t ++ ch).getLsbD 7 = t.getLsbD 3 := by
  simp only [BitVec.getLsbD_append]
  simp

theorem nibble_type (t ch : BitVec 4) : midiType ((t ++ ch).extractLsb' 0 7) = t.extractLsb' 0 3 := by
  apply BitVec.eq_of_getLsbD_eq
  intro i hi
  simp only [midiType, BitVec.getLsbD_extractLsb', BitVec.getLsbD_append, hi]
  grind

/-- The two data bytes of a bend put together again (R117). -/
theorem bend_halves (b : BitVec 14) : b.extractLsb' 7 7 ++ b.extractLsb' 0 7 = b := by
  apply BitVec.eq_of_getLsbD_eq
  intro i hi
  simp only [BitVec.getLsbD_extractLsb', BitVec.getLsbD_append]
  grind

end Sys2Proof
end

