-- ==== Sys2Proof/Laws/Dispatch.lean ====
section
/-! SUPPORT. What an instruction can do, said once for all of them: every instruction but five is one update of the
instance, and the 53 register-write records are one `Emit`. -/

namespace Sys2Proof.Machine

/-- An update that leaves the instance as it is leaves the state as it is. -/
theorem onInstance_id (s : State) : onInstance (fun _ I => I) s = .next s := by
  unfold onInstance
  split
  · rfl
  · rename_i I h
    cases s
    simp_all

/-- What the instructions that act on the instance alone do to it; none for the five others. -/
def updateOf : Instr → Option (Config → Instance → Instance)
  | .midiMalformedStatus _ _ _ | .midiMalformedData1 _ _ _ | .midiMalformedData2 _ _ _ | .polyAt _ _ _
  | .ccOther _ _ _ | .progChange _ _ _ | .chanPressure _ _ _ | .midiSystem _ _ _ => some fun _ I => I
  | .noteOff _ n _ | .noteOnV0 _ n => some fun _ I => I.noteOffRelease (xnote I.params n.toNat)
  | .noteOn _ n v => some fun cfg I => I.noteOnAlloc cfg (xnote I.params n.toNat) v.toNat
  | .ccModwheel _ x => some fun cfg I => I.modWheel cfg x.toNat
  | .ccAllNotesOff _ _ => some fun _ I => I.allVoicesOff
  | .pitchBend _ b => some fun cfg I => { I with bend := bendSemitones cfg b.toNat }
  | .setParam id value => some fun cfg I => I.setParam cfg id.toNat (paramValue value)
  | .create _ | .destroy | .render _ | .getParam _ | .reserved _ => none
  | .nesPulse1Ctrl v => some fun cfg I => I.emit cfg 0x4000 v
  | .nesPulse1Sweep v => some fun cfg I => I.emit cfg 0x4001 v
  | .nesPulse1Lo v => some fun cfg I => I.emit cfg 0x4002 v
  | .nesPulse1Hi v => some fun cfg I => I.emit cfg 0x4003 v
  | .nesPulse2Ctrl v => some fun cfg I => I.emit cfg 0x4004 v
  | .nesPulse2Sweep v => some fun cfg I => I.emit cfg 0x4005 v
  | .nesPulse2Lo v => some fun cfg I => I.emit cfg 0x4006 v
  | .nesPulse2Hi v => some fun cfg I => I.emit cfg 0x4007 v
  | .nesTriLinear v => some fun cfg I => I.emit cfg 0x4008 v
  | .nesTriLo v => some fun cfg I => I.emit cfg 0x400A v
  | .nesTriHi v => some fun cfg I => I.emit cfg 0x400B v
  | .nesNoiseCtrl v => some fun cfg I => I.emit cfg 0x400C v
  | .nesNoiseMode v => some fun cfg I => I.emit cfg 0x400E v
  | .nesNoiseLen v => some fun cfg I => I.emit cfg 0x400F v
  | .nesStatus v => some fun cfg I => I.emit cfg 0x4015 v
  | .nesFrameCounter v => some fun cfg I => I.emit cfg 0x4017 v
  | .gbNr10 v => some fun cfg I => I.emit cfg 0xFF10 v
  | .gbNr11 v => some fun cfg I => I.emit cfg 0xFF11 v
  | .gbNr12 v => some fun cfg I => I.emit cfg 0xFF12 v
  | .gbNr13 v => some fun cfg I => I.emit cfg 0xFF13 v
  | .gbNr14 v => some fun cfg I => I.emit cfg 0xFF14 v
  | .gbNr21 v => some fun cfg I => I.emit cfg 0xFF16 v
  | .gbNr22 v => some fun cfg I => I.emit cfg 0xFF17 v
  | .gbNr23 v => some fun cfg I => I.emit cfg 0xFF18 v
  | .gbNr24 v => some fun cfg I => I.emit cfg 0xFF19 v
  | .gbNr30 v => some fun cfg I => I.emit cfg 0xFF1A v
  | .gbNr31 v => some fun cfg I => I.emit cfg 0xFF1B v
  | .gbNr32 v => some fun cfg I => I.emit cfg 0xFF1C v
  | .gbNr33 v => some fun cfg I => I.emit cfg 0xFF1D v
  | .gbNr34 v => some fun cfg I => I.emit cfg 0xFF1E v
  | .gbNr41 v => some fun cfg I => I.emit cfg 0xFF20 v
  | .gbNr42 v => some fun cfg I => I.emit cfg 0xFF21 v
  | .gbNr43 v => some fun cfg I => I.emit cfg 0xFF22 v
  | .gbNr44 v => some fun cfg I => I.emit cfg 0xFF23 v
  | .gbNr50 v => some fun cfg I => I.emit cfg 0xFF24 v
  | .gbNr51 v => some fun cfg I => I.emit cfg 0xFF25 v
  | .gbNr52 v => some fun cfg I => I.emit cfg 0xFF26 v
  | .gbWaveRam0 v => some fun cfg I => I.emit cfg 0xFF30 v
  | .gbWaveRam1 v => some fun cfg I => I.emit cfg 0xFF31 v
  | .gbWaveRam2 v => some fun cfg I => I.emit cfg 0xFF32 v
  | .gbWaveRam3 v => some fun cfg I => I.emit cfg 0xFF33 v
  | .gbWaveRam4 v => some fun cfg I => I.emit cfg 0xFF34 v
  | .gbWaveRam5 v => some fun cfg I => I.emit cfg 0xFF35 v
  | .gbWaveRam6 v => some fun cfg I => I.emit cfg 0xFF36 v
  | .gbWaveRam7 v => some fun cfg I => I.emit cfg 0xFF37 v
  | .gbWaveRam8 v => some fun cfg I => I.emit cfg 0xFF38 v
  | .gbWaveRam9 v => some fun cfg I => I.emit cfg 0xFF39 v
  | .gbWaveRamA v => some fun cfg I => I.emit cfg 0xFF3A v
  | .gbWaveRamB v => some fun cfg I => I.emit cfg 0xFF3B v
  | .gbWaveRamC v => some fun cfg I => I.emit cfg 0xFF3C v
  | .gbWaveRamD v => some fun cfg I => I.emit cfg 0xFF3D v
  | .gbWaveRamE v => some fun cfg I => I.emit cfg 0xFF3E v
  | .gbWaveRamF v => some fun cfg I => I.emit cfg 0xFF3F v

/-- An instruction that acts on the instance alone runs its update on an instance and does nothing on ⊥. -/
theorem exec_update {i : Instr} {f : Config → Instance → Instance} (h : updateOf i = some f) (s : State) :
    exec i s = onInstance f s := by
  cases i <;> simp only [updateOf, Option.some.injEq, reduceCtorEq] at h <;> subst h <;>
    first
    | rfl
    | exact (onInstance_id s).symm

/-- The five instructions that are not an update of the instance. -/
theorem updateOf_none {i : Instr} (h : updateOf i = none) :
    (∃ c, i = .create c) ∨ i = .destroy ∨ (∃ f, i = .render f) ∨ (∃ id, i = .getParam id) ∨ ∃ w, i = .reserved w := by
  cases i <;> simp [updateOf] at h ⊢

/-- A register-write record is the `Emit` of the address and value of its pattern. -/
theorem updateOf_record {i : Instr} {c : Chip} (h : recordChip i = some c) :
    ∃ a v, encode i = recordPacket a v ∧ recordRow a.toNat v = some i ∧
      updateOf i = some fun cfg I => I.emit cfg a v := by
  cases i <;> simp only [recordChip, reduceCtorEq] at h <;> exact ⟨_, _, rfl, rfl, rfl⟩

end Sys2Proof.Machine
end

