-- ==== Sys2Proof/Laws/Pool.lean ====
section
/-! SUPPORT. The voice pool: the words of Safety.lean in terms of the allocator's operations, and that every operation
on the pool keeps R54, R66 and R243 (a). -/

namespace Sys2Proof.Machine

/-! ### The words of Safety.lean -/

theorem xnote_eq_transposed (P : Params) (n : BitVec 7) : xnote P n.toNat = transposed P n := by
  unfold xnote transposed clamp; congr 1; omega

theorem enabled_iff (cfg : Config) (P : Params) (c : Fin 4) : enabled cfg P c = true ↔ maskBit cfg P c := by
  unfold enabled maskBit; rw [Nat.testBit_eq_decide_div_mod_eq]; simp

theorem enabled_false (cfg : Config) (P : Params) (c : Fin 4) : enabled cfg P c = false ↔ ¬ maskBit cfg P c := by
  rw [← enabled_iff]; simp

theorem free_iff_channelFree (cfg : Config) (I : Instance) (c : Fin 4) :
    I.free cfg c = true ↔ ChannelFree cfg I c := by
  rw [free_iff, enabled_iff, busy_false_iff]; rfl

theorem envRate_eq (cfg : Config) (p d : Nat) : envRate cfg p d = timeRate p d cfg.sr := by
  unfold envRate timeRate
  split
  · rfl
  · by_cases hd : (d : Rat) = 0
    · simp [hd]
    · by_cases hs : (cfg.sr : Rat) = 0
      · simp [hs]
      · have : (p : Rat) ≠ 0 := by exact_mod_cast ‹¬ p = 0›
        field_simp

theorem voice_voiceInit_started (cfg : Config) (I : Instance) {s : Nat} (n v : Nat) (c : Fin 4)
    (hs : s < I.voices.length) :
    (I.voiceInit cfg s n v c).voice s = startedVoice cfg I.params (I.voice s).env n v c (I.ageCounter + 1) := by
  rw [voice_voiceInit_self _ _ _ _ _ hs]; simp [startedVoice, Envelope.configure, Envelope.gateOn, envRate_eq]

theorem startedVoice_congr (cfg : Config) (P : Params) (n v : Nat) (c : Fin 4) (a : Nat) {e e' : Envelope} (h :
    e'.level = e.level) :
    startedVoice cfg P e' n v c a = startedVoice cfg P e n v c a := by simp [startedVoice, h]

theorem unisonWanted_false {cfg : Config} {P : Params} {c : Fin 4} (h : NoDouble cfg P c) :
    unisonWanted cfg P c = false := by
  unfold unisonWanted bothPulses
  rw [Bool.eq_false_iff]
  intro hh
  simp only [Bool.and_eq_true, decide_eq_true_eq, bne_iff_ne, beq_iff_eq, enabled_iff] at hh
  rcases h with h | h | h | h | h <;> first | tauto | omega

theorem find?_slots_of {I : Instance} {p : Nat → Bool} {k : Nat} (hk : k < I.voices.length) (h : p k = true)
    (hl : ∀ j < k, p j = false) : I.slots.find? p = some k := by
  cases hf : I.slots.find? p with
  | none => have := find?_slots_none hf hk; simp_all
  | some j =>
    obtain ⟨-, a, b⟩ := find?_slots hf
    congr 1
    rcases lt_trichotomy j k with h1 | h1 | h1
    · simp [hl j h1] at a
    · exact h1
    · simp [b k h1] at h

theorem find?_channels_of {cfg : Config} {p : Fin 4 → Bool} {k : Fin 4} (hk : k.val < cfg.nChannels) (h : p k = true)
    (hl : ∀ j < k, p j = false) : (channels cfg).find? p = some k := by
  cases hf : (channels cfg).find? p with
  | none => have := find?_channels_none hf hk; simp_all
  | some j =>
    obtain ⟨-, a, b⟩ := find?_channels hf
    congr 1
    rcases lt_trichotomy j k with h1 | h1 | h1
    · simp [hl j h1] at a
    · exact h1
    · simp [b k h1] at h

theorem slotSelect_free {I : Instance} {k : Nat} (hk : k < I.voices.length) (h : (I.voice k).active = false)
    (hl : ∀ j < k, (I.voice j).active = true) : I.slotSelect = (k, I) := by
  unfold Instance.slotSelect Instance.freeSlot
  rw [find?_slots_of hk (by simpa using h) (fun j hj => by simpa using hl j hj)]

/-- NOTE_ON_ALLOC without a double, given the channel selected and the least inactive slot. -/
theorem noteOnAlloc_free {cfg : Config} {I J : Instance} {n v : Nat} {c : Fin 4} {k : Nat} (hs :
    I.leadClear.channelSelect cfg n = some (c, J)) (hk : k < J.voices.length) (h : (J.voice k).active = false)
    (hl : ∀ j < k, (J.voice j).active = true) (hd : NoDouble cfg I.params c) :
   I.noteOnAlloc cfg n v = J.voiceInit cfg k n v c := by
  unfold Instance.noteOnAlloc
  rw [hs]; simp only
  rw [slotSelect_free hk h hl, unisonWanted_false hd]; rfl

theorem oldest_of {I : Instance} {p : Voice → Bool} {w : Nat} (hw : w < I.voices.length) (h : p (I.voice w) = true)
    (hl : ∀ j < I.voices.length, j ≠ w → p (I.voice j) = true → (I.voice w).age < (I.voice j).age) :
    I.oldest p = some w := by
  cases ho : I.oldest p with
  | none => simp [oldest_none ho hw] at h
  | some j =>
    obtain ⟨a, b⟩ := oldest_some ho
    by_cases hj : j = w
    · rw [hj]
    · have := hl j (oldest_lt ho) hj a; have := b w hw h; omega

/-! ### The pool's invariant -/

/-- What stands for a voice where there is no slot meets a voice's ranges. -/
theorem VoiceOk.absent (ctr : Nat) : VoiceOk ctr Voice.absent := by
  refine ⟨by decide, by decide, ?_, ?_, ?_, ?_, ?_, ?_⟩
  · constructor <;> decide +kernel
  all_goals simp [Voice.absent]

/-- The pool's part of `InstanceOk`: R54, R66 (c) to (e), R243 (a). -/
structure PoolOk (cfg : Config) (ctr : Nat) (f : Nat → Voice) : Prop where
  voices : ∀ s, VoiceOk ctr (f s)
  below : ∀ s, (f s).active = true → (f s).channel.val < cfg.nChannels
  channels : ∀ s t, (f s).active = true → (f t).active = true → (f s).channel = (f t).channel → s = t
  ages : ∀ s t, (f s).active = true → (f t).active = true → (f s).age = (f t).age → s = t

theorem InstanceOk.poolOk {cfg : Config} {I : Instance} (h : InstanceOk cfg I) : PoolOk cfg I.ageCounter I.voice :=
  ⟨h.voices, h.channelBelow, h.channels, h.ages⟩

theorem InstanceOk.slotThere {cfg : Config} (hc : cfg.wf) {I : Instance} (h : InstanceOk cfg I) :
    0 < I.voices.length := by
  have := hc.2.2.2.2.2.2.2.2.2.2.2.2.2.2.2.2.1
  rwa [h.pool]

theorem InstanceOk.withPool {cfg : Config} {I J : Instance} (h : InstanceOk cfg I)
    (hp : PoolOk cfg J.ageCounter J.voice) (hlen : J.voices.length = I.voices.length)
    (e : J = { I with voices := J.voices, ageCounter := J.ageCounter }) : InstanceOk cfg J := by
  have hpl : J.voices.length = cfg.poolSize := hlen.trans h.pool
  have hpv := hp.voices; have hpb := hp.below; have hpc := hp.channels; have hpa := hp.ages
  generalize hv : J.voices = v at e hpl
  generalize hc : J.ageCounter = c at e hpv
  subst e
  exact ⟨h.params, h.presetId, hpl, hpv, hpb, hpc, hpa, h.lfoLow, h.lfoHigh, h.bendLow, h.bendHigh, h.writeTimes,
    h.writesMapped, h.enqueuedMapped, h.regsForm, h.regsMapped, h.regsAll⟩

theorem PoolOk.sub {cfg : Config} {ctr : Nat} {f g : Nat → Voice} (h : PoolOk cfg ctr f) (hv : ∀ s, VoiceOk ctr (g s))
    (ha : ∀ s, (g s).active = true → (f s).active = true ∧ (g s).channel = (f s).channel ∧ (g s).age = (f s).age) :
    PoolOk cfg ctr g := by
  refine ⟨hv, fun s hs => ?_, fun s t hs ht hc => ?_, fun s t hs ht hc => ?_⟩
  · have := ha s hs; rw [this.2.1]; exact h.below s this.1
  · have := ha s hs; have := ha t ht; exact h.channels s t (by tauto) (by tauto) (by simp_all)
  · have := ha s hs; have := ha t ht; exact h.ages s t (by tauto) (by tauto) (by simp_all)

theorem VoiceOk.deactivate {ctr : Nat} {v : Voice} (h : VoiceOk ctr v) : VoiceOk ctr v.deactivate :=
  ⟨h.note, h.velocity, h.env, h.penvLow, h.penvHigh, fun h => by simp at h, fun h => by simp at h,
      fun h => by simp at h⟩

theorem VoiceOk.release {ctr : Nat} {v : Voice} (h : VoiceOk ctr v) : VoiceOk ctr v.release :=
  ⟨h.note, h.velocity, h.env.gateOff, h.penvLow, h.penvHigh, fun h => by simp at h, fun h => by simp at h,
      fun h => by simp at h⟩

theorem VoiceOk.mono {c d : Nat} {v : Voice} (h : VoiceOk c v) (hcd : c ≤ d) : VoiceOk d v :=
  ⟨h.note, h.velocity, h.env, h.penvLow, h.penvHigh, h.activeStage, h.activeVelocity,
      fun ha => (h.activeAge ha).trans hcd⟩

theorem PoolOk.deactivate {cfg : Config} {I : Instance} (h : PoolOk cfg I.ageCounter I.voice) (s : Nat) : PoolOk cfg
    (I.deactivate s).ageCounter (I.deactivate s).voice := by
  refine PoolOk.sub h (fun t => ?_) (fun t ht => ?_)
  · rw [voice_deactivate]; split
    · exact (h.voices s).deactivate
    · exact h.voices t
  · rw [voice_deactivate] at ht ⊢; split at ht
    · simp at ht
    · rename_i hne; simp [hne, ht]

theorem PoolOk.deactivateAll {cfg : Config} {I : Instance} (h : PoolOk cfg I.ageCounter I.voice) : PoolOk cfg
    (I.deactivateAll).ageCounter (I.deactivateAll).voice := by
  refine PoolOk.sub h (fun t => ?_) (fun t ht => ?_)
  · rw [voice_deactivateAll]; exact (h.voices t).deactivate
  · rw [voice_deactivateAll] at ht; simp at ht

theorem PoolOk.voiceInit {cfg : Config} {I : Instance} (hc : cfg.wf) (hP : ParamsOk cfg I.params)
    (h : PoolOk cfg I.ageCounter I.voice) {s : Nat} (hs : s < I.voices.length) {n v : Nat} {c : Fin 4}
    (hcl : c.val < cfg.nChannels) (hn : n ≤ 127) (hv : v ≤ 127) (hv1 : 1 ≤ v)
    (hb : ∀ t, (I.voice t).active = true → (I.voice t).channel ≠ c) :
    PoolOk cfg (I.voiceInit cfg s n v c).ageCounter (I.voiceInit cfg s n v c).voice := by
  have e : ∀ t, s ≠ t → (I.voiceInit cfg s n v c).voice t = I.voice t := fun t ht => voice_voiceInit_ne cfg n v c I ht
  have es := voice_voiceInit_self cfg n v c I hs
  refine ⟨fun t => ?_, fun t ht => ?_, fun t u ht hu htu => ?_, fun t u ht hu htu => ?_⟩
  · by_cases hst : s = t
    · subst hst
      rw [es]
      have hpl : (-24 : Rat) ≤ I.params.penvDepth := by exact_mod_cast hP.penvDepthLow
      have hph : (I.params.penvDepth : Rat) ≤ 24 := by exact_mod_cast hP.penvDepthHigh
      have he := (h.voices s).env
      exact ⟨hn, hv, (EnvelopeOk.configure hc hP.sustain he.levelLow he.levelHigh he.idleLevel).gateOn, hpl, hph,
          fun _ => by simp, fun _ => hv1, fun _ => le_refl _⟩
    · rw [e t hst]; exact (h.voices t).mono (Nat.le_succ _)
  · by_cases hst : s = t
    · subst hst; rw [es]; exact hcl
    · rw [e t hst] at ht ⊢; exact h.below t ht
  · by_cases hst : s = t <;> by_cases hsu : s = u
    · rw [← hst, hsu]
    · subst hst; rw [es, e u hsu] at htu; rw [e u hsu] at hu; exact absurd htu.symm (hb u hu)
    · subst hsu; rw [es, e t hst] at htu; rw [e t hst] at ht; exact absurd htu (hb t ht)
    · rw [e t hst] at ht htu; rw [e u hsu] at hu htu; exact h.channels t u ht hu htu
  · by_cases hst : s = t <;> by_cases hsu : s = u
    · rw [← hst, hsu]
    · subst hst; rw [es, e u hsu] at htu; rw [e u hsu] at hu; have :=
        (h.voices u).activeAge hu; simp only at htu; omega
    · subst hsu; rw [es, e t hst] at htu; rw [e t hst] at ht; have :=
        (h.voices t).activeAge ht; simp only at htu; omega
    · rw [e t hst] at ht htu; rw [e u hsu] at hu htu; exact h.ages t u ht hu htu

theorem deactivate_eq {I : Instance} (s : Nat) :
    I.deactivate s = { I with voices := (I.deactivate s).voices, ageCounter := (I.deactivate s).ageCounter } := rfl

/-- The double keeps the pool's invariant and writes voices and the age counter only. -/
theorem PoolOk.autoUnison {cfg : Config} {K : Instance} (hc : cfg.wf) (hP : ParamsOk cfg K.params)
    (h : PoolOk cfg K.ageCounter K.voice) (h1 : 1 < cfg.nChannels) {n v : Nat} (hn : n ≤ 127) (hv : v ≤ 127)
    (hv1 : 1 ≤ v) :
    PoolOk cfg (K.autoUnison cfg n v).ageCounter (K.autoUnison cfg n v).voice ∧
      (K.autoUnison cfg n v).voices.length = K.voices.length ∧
      K.autoUnison cfg n v =
        { K with voices := (K.autoUnison cfg n v).voices, ageCounter := (K.autoUnison cfg n v).ageCounter } := by
  unfold Instance.autoUnison
  split
  · exact ⟨h, rfl, rfl⟩
  · rename_i s2 hs2
    have hM : PoolOk cfg (K.mapVoices Voice.leaveChannel1).ageCounter (K.mapVoices Voice.leaveChannel1).voice := by
      refine PoolOk.sub h (fun t => ?_) (fun t ht => ?_)
      · rw [voice_leaveChannel1]; split
        · exact (h.voices t).deactivate
        · exact h.voices t
      · rw [voice_leaveChannel1] at ht ⊢; split at ht
        · simp at ht
        · rename_i hne; rw [if_neg hne]; exact ⟨ht, rfl, rfl⟩
    refine ⟨hM.voiceInit (I := K.mapVoices Voice.leaveChannel1) hc hP (by simpa using (find?_slots hs2).1) (c :=
        1) h1 hn hv hv1 fun t ht => ?_,
      by simp, rfl⟩
    rw [voice_leaveChannel1] at ht ⊢; split at ht
    · simp at ht
    · rename_i hne; rw [if_neg hne]; intro e; exact hne (by simp [e, ht])

/-- NOTE_ON_ALLOC keeps the pool's invariant and writes voices and the age counter only. -/
theorem PoolOk.noteOnAlloc {cfg : Config} {I : Instance} (hc : cfg.wf) (hP : ParamsOk cfg I.params)
    (h : PoolOk cfg I.ageCounter I.voice) (hI : 0 < I.voices.length) {n v : Nat} (hn : n ≤ 127) (hv : v ≤ 127)
    (hv1 : 1 ≤ v) :
    PoolOk cfg (I.noteOnAlloc cfg n v).ageCounter (I.noteOnAlloc cfg n v).voice ∧
      (I.noteOnAlloc cfg n v).voices.length = I.voices.length ∧
      I.noteOnAlloc cfg n v =
        { I with
          voices := (I.noteOnAlloc cfg n v).voices
          ageCounter := (I.noteOnAlloc cfg n v).ageCounter } := by
  have hL : PoolOk cfg I.leadClear.ageCounter I.leadClear.voice ∧ I.leadClear.voices.length = I.voices.length ∧
      I.leadClear = { I with voices := I.leadClear.voices } ∧ (I.leadClear.params.mode = .lead → ∀ s,
      (I.leadClear.voice s).active = false) := by
    unfold Instance.leadClear
    split
    · exact ⟨h.deactivateAll, by simp, rfl, fun _ s => by simp⟩
    · rename_i hm; exact ⟨h, rfl, rfl, fun h' => absurd h' hm⟩
  unfold Instance.noteOnAlloc
  generalize I.leadClear = L at hL
  obtain ⟨hLp, hLn, hLe, hLl⟩ := hL
  have hPL : L.params = I.params := by rw [hLe]
  cases hsel : L.channelSelect cfg n with
  | none => exact ⟨hLp, hLn, by rw [hLe]⟩
  | some r =>
    obtain ⟨c, J⟩ := r
    simp only
    have hJ : PoolOk cfg J.ageCounter J.voice ∧ J.voices.length = I.voices.length ∧
        J = { I with voices := J.voices, ageCounter := J.ageCounter } ∧ c.val < cfg.nChannels ∧ ∀ t,
        (J.voice t).active = true → (J.voice t).channel ≠ c := by
      rcases channelSelect_cases hLl hsel with ⟨rfl, he, hb⟩ | ⟨w, rfl, rfl, ha⟩
      · exact ⟨hLp, hLn, by rw [hLe], enabled_lt he, (busy_false_iff _ _).1 hb⟩
      · refine ⟨hLp.deactivate w, by simpa using hLn, by rw [hLe]; rfl, hLp.below w ha, fun t ht => ?_⟩
        rw [voice_deactivate] at ht ⊢
        split at ht
        · simp at ht
        · rename_i hne
          rw [if_neg hne]
          exact fun e => hne (hLp.channels t w ht ha e).symm
    obtain ⟨hJp, hJn, hJe, hJc, hJb⟩ := hJ
    have hS : PoolOk cfg J.slotSelect.2.ageCounter J.slotSelect.2.voice ∧
        J.slotSelect.2.voices.length = I.voices.length ∧ J.slotSelect.1 < I.voices.length ∧
        J.slotSelect.2 = { I with voices := J.slotSelect.2.voices, ageCounter := J.slotSelect.2.ageCounter } ∧
        (∀ t, (J.slotSelect.2.voice t).active = true → (J.slotSelect.2.voice t).channel ≠ c) := by
      rcases slotSelect_cases (hJn ▸ hI) with ⟨s, e, hs, -⟩ | ⟨s, e, hs, -⟩ <;> rw [e]
      · exact ⟨hJp, hJn, hJn ▸ hs, hJe, hJb⟩
      · refine ⟨hJp.deactivate s, by simpa using hJn, hJn ▸ hs, by rw [hJe]; rfl, fun t ht => ?_⟩
        simp only [voice_deactivate] at ht ⊢
        split at ht
        · simp at ht
        · rename_i hne
          rw [if_neg hne]; exact hJb t ht
    generalize J.slotSelect = S at hS
    obtain ⟨hSp, hSn, hSs, hSe, hSb⟩ := hS
    have hPS : S.2.params = I.params := by rw [hSe]
    have hK := hSp.voiceInit hc (by rw [hPS]; exact hP) (hSn.symm ▸ hSs) (c := c) hJc hn hv hv1 hSb
    have hKe : S.2.voiceInit cfg S.1 n v c =
        { I with
          voices := (S.2.voiceInit cfg S.1 n v c).voices
          ageCounter := (S.2.voiceInit cfg S.1 n v c).ageCounter } := by rw [hSe]; rfl
    have hKn : (S.2.voiceInit cfg S.1 n v c).voices.length = I.voices.length := by simpa using hSn
    split
    swap
    · exact ⟨hK, hKn, hKe⟩
    rename_i hu
    have h1 : 1 < cfg.nChannels := by
      simp only [unisonWanted, bothPulses, Bool.and_eq_true] at hu
      exact enabled_lt (c := 1) hu.1.2.2
    generalize S.2.voiceInit cfg S.1 n v c = K at hK hKe hKn
    have hU := hK.autoUnison hc (by rw [hKe]; exact hP) h1 hn hv hv1
    exact ⟨hU.1, hU.2.1.trans hKn, hU.2.2.trans (by rw [hKe])⟩

theorem xnote_le (P : Params) (n : Nat) : xnote P n ≤ 127 := by unfold xnote clamp; omega

end Sys2Proof.Machine
end

