-- ==== Sys2Proof/Laws/Memory.lean ====
section
/-! SUPPORT. The chip register space: read after write, and that every operation on it keeps the canonical form. -/

namespace Sys2Proof.Machine

theorem Memory.wf_cons {a : Nat} {v : Byte} {m : List Host.Cell} :
    Memory.wf ((a, v) :: m) = true ↔ a < 2 ^ 16 ∧ (∀ c ∈ m, a < c.1) ∧ Memory.wf m = true := by
  simp [Memory.wf, and_assoc]

/-- A write's entries are the old ones and the one written. -/
theorem Memory.mem_write {m : List Host.Cell} {a : Nat} {v : Byte} {c : Host.Cell} (h : c ∈ Memory.write m a v) :
    c = (a, v) ∨ c ∈ m := by
  induction m with
  | nil => simpa [Memory.write] using h
  | cons d m ih =>
    obtain ⟨b, w⟩ := d
    unfold Memory.write at h
    split at h
    · simpa using h
    · split at h
      · rcases List.mem_cons.1 h with h | h
        · exact .inl h
        · exact .inr (List.mem_cons_of_mem _ h)
      · rcases List.mem_cons.1 h with h | h
        · exact .inr (by simp [h])
        · rcases ih h with h | h
          · exact .inl h
          · exact .inr (List.mem_cons_of_mem _ h)

/-- A write keeps the canonical form. -/
theorem Memory.wf_write {m : List Host.Cell} {a : Nat} {v : Byte} (ha : a < 2 ^ 16) (h : Memory.wf m = true) :
    Memory.wf (Memory.write m a v) = true := by
  induction m with
  | nil => simpa [Memory.write, Memory.wf] using ha
  | cons d m ih =>
    obtain ⟨b, w⟩ := d
    obtain ⟨hb, hlt, hm⟩ := Memory.wf_cons.1 h
    unfold Memory.write
    split
    · rename_i hab
      refine Memory.wf_cons.2 ⟨ha, fun c hc => ?_, h⟩
      rcases List.mem_cons.1 hc with rfl | hc
      · exact hab
      · exact hab.trans (hlt c hc)
    · split
      · rename_i hab
        subst hab
        exact Memory.wf_cons.2 ⟨ha, hlt, hm⟩
      · refine Memory.wf_cons.2 ⟨hb, fun c hc => ?_, ih hm⟩
        rcases Memory.mem_write hc with rfl | hc
        · simp only
          omega
        · exact hlt c hc

theorem Memory.read?_cons (b : Nat) (w : Byte) (m : List Host.Cell) (a : Nat) :
    Memory.read? ((b, w) :: m) a = if a = b then some w else Memory.read? m a := rfl

/-- Nothing is read at an address below every entry. -/
theorem Memory.read?_below {m : List Host.Cell} {a : Nat} (h : ∀ c ∈ m, a < c.1) : Memory.read? m a = none := by
  induction m with
  | nil => rfl
  | cons d m ih =>
    obtain ⟨b, w⟩ := d
    have hb : a < b := h (b, w) (by simp)
    rw [Memory.read?_cons, if_neg (by omega)]
    exact ih fun c hc => h c (List.mem_cons_of_mem _ hc)

/-- Read after write: the written address reads the written value, every other address as before. -/
theorem Memory.read?_write (m : List Host.Cell) (a : Nat) (v : Byte) (x : Nat) :
    Memory.read? (Memory.write m a v) x = if x = a then some v else Memory.read? m x := by
  induction m with
  | nil => rfl
  | cons d m ih =>
    obtain ⟨b, w⟩ := d
    unfold Memory.write
    split
    · rfl
    · split
      · rename_i hab
        subst hab
        simp only [Memory.read?_cons]
        split <;> rfl
      · rename_i hab
        simp only [Memory.read?_cons, ih]
        by_cases hx : x = b
        · subst hx
          have : x ≠ a := fun e => hab e.symm
          simp [this]
        · simp [hx]

@[simp] theorem Memory.apply_nil (m : List Host.Cell) : Memory.apply m [] = m := rfl

@[simp] theorem Memory.apply_cons (m : List Host.Cell) (r : WriteRecord) (rs : List WriteRecord) :
    Memory.apply m (r :: rs) = Memory.apply (Memory.write m r.addr.toNat r.value) rs := rfl

/-- Applying a write list keeps the canonical form. -/
theorem Memory.wf_apply {m : List Host.Cell} (ws : List WriteRecord) (h : Memory.wf m = true) :
    Memory.wf (Memory.apply m ws) = true := by
  induction ws generalizing m with
  | nil => exact h
  | cons r rs ih => exact ih (Memory.wf_write (by simpa using r.addr.isLt) h)

/-- The entries after a write list are old ones or addresses the list writes. -/
theorem Memory.mem_apply {m : List Host.Cell} {ws : List WriteRecord} {c : Host.Cell}
    (h : c ∈ Memory.apply m ws) : c ∈ m ∨ ∃ r ∈ ws, c.1 = r.addr.toNat := by
  induction ws generalizing m with
  | nil => exact .inl h
  | cons r rs ih =>
    rcases ih h with h | ⟨r', hr, e⟩
    · rcases Memory.mem_write h with rfl | h
      · exact .inr ⟨r, by simp, rfl⟩
      · exact .inl h
    · exact .inr ⟨r', List.mem_cons_of_mem _ hr, e⟩

/-- A write to a listed address leaves the list of addresses as it is. -/
theorem Memory.addresses_write {m : List Host.Cell} {a : Nat} {v : Byte} (hw : Memory.wf m = true)
    (ha : a ∈ m.map Prod.fst) : (Memory.write m a v).map Prod.fst = m.map Prod.fst := by
  induction m with
  | nil => simp at ha
  | cons d m ih =>
    obtain ⟨b, w⟩ := d
    obtain ⟨-, hlt, hm⟩ := Memory.wf_cons.1 hw
    rcases List.mem_cons.1 (by simpa using ha : a ∈ b :: m.map Prod.fst) with rfl | ha
    · simp [Memory.write]
    · obtain ⟨c, hc, rfl⟩ := List.mem_map.1 ha
      have := hlt c hc
      simp [Memory.write, show ¬c.1 < b by omega, show c.1 ≠ b by omega, ih hm ha]

/-- Writes to listed addresses leave the list of addresses as it is. -/
theorem Memory.addresses_apply {m : List Host.Cell} {ws : List WriteRecord} (hw : Memory.wf m = true)
    (ha : ∀ r ∈ ws, r.addr.toNat ∈ m.map Prod.fst) : (Memory.apply m ws).map Prod.fst = m.map Prod.fst := by
  induction ws generalizing m with
  | nil => rfl
  | cons r rs ih =>
    have e := Memory.addresses_write (v := r.value) hw (ha r (by simp))
    rw [Memory.apply_cons, ih (Memory.wf_write (by simpa using r.addr.isLt) hw), e]
    intro r' hr
    rw [e]
    exact ha r' (List.mem_cons_of_mem _ hr)

/-- A listed address reads as some value. -/
theorem Memory.read?_of_mem {m : List Host.Cell} {a : Nat} (ha : a ∈ m.map Prod.fst) :
    ∃ v, Memory.read? m a = some v := by
  induction m with
  | nil => simp at ha
  | cons d m ih =>
    obtain ⟨b, w⟩ := d
    rw [Memory.read?_cons]
    by_cases h : a = b
    · exact ⟨w, if_pos h⟩
    · rw [if_neg h]
      exact ih ((List.mem_cons.1 (by simpa using ha : a ∈ b :: m.map Prod.fst)).resolve_left h)

@[simp] theorem Memory.addresses_created : Memory.created.map Prod.fst = chipRegisters := by
  simp [Memory.created, Function.comp_def]

theorem Memory.wf_created : Memory.wf Memory.created = true := by decide +kernel

/-- The addresses of the table's rows are the chip registers. -/
theorem mem_chipRegisters {a : Nat} (h : mappedRegister a = true) : a ∈ chipRegisters := by
  unfold mappedRegister recordRow at h
  split at h <;> first
    | decide
    | simp at h

/-- A chip register has a row of the table. -/
theorem mapped_of_mem {a : Nat} (h : a ∈ chipRegisters) : mappedRegister a = true :=
  List.all_eq_true.1 (by decide : chipRegisters.all mappedRegister = true) a h

/-- An address no write of the list names reads as before. -/
theorem Memory.read?_apply_of_not_mem {m : List Host.Cell} {ws : List WriteRecord} {x : Nat}
    (h : ∀ r ∈ ws, r.addr.toNat ≠ x) : Memory.read? (Memory.apply m ws) x = Memory.read? m x := by
  induction ws generalizing m with
  | nil => rfl
  | cons r rs ih =>
    rw [Memory.apply_cons, ih fun r' hr => h r' (List.mem_cons_of_mem _ hr), Memory.read?_write, if_neg]
    exact fun e => h r (by simp) e.symm

end Sys2Proof.Machine
end

