-- ==== Sys2Proof/Laws/Renderer.lean ====
section
/-! SUPPORT. What a render does to the instance, field by field: the block's write list as one concatenation,
    the voices
after the block, the core's registers. -/

namespace Sys2Proof.Machine

/-! ### Each step's fields -/

@[simp] theorem chip_renderStart (cfg : Config) (I : Instance) : (I.renderStart cfg).chip = I.chip := by
  unfold Instance.renderStart; split <;> simp
@[simp] theorem params_renderStart (cfg : Config) (I : Instance) : (I.renderStart cfg).params = I.params := by
  unfold Instance.renderStart; split <;> simp
@[simp] theorem presetId_renderStart (cfg : Config) (I : Instance) : (I.renderStart cfg).presetId = I.presetId := by
  unfold Instance.renderStart; split <;> simp
@[simp] theorem voices_renderStart (cfg : Config) (I : Instance) : (I.renderStart cfg).voices = I.voices := by
  unfold Instance.renderStart; split <;> simp
@[simp] theorem lfoPhase_renderStart (cfg : Config) (I : Instance) : (I.renderStart cfg).lfoPhase = I.lfoPhase := by
  unfold Instance.renderStart; split <;> simp
@[simp] theorem bend_renderStart (cfg : Config) (I : Instance) : (I.renderStart cfg).bend = I.bend := by
  unfold Instance.renderStart; split <;> simp
@[simp] theorem ageCounter_renderStart (cfg : Config) (I : Instance) : (I.renderStart cfg).ageCounter = I.ageCounter := by
  unfold Instance.renderStart; split <;> simp
@[simp] theorem initPending_renderStart (cfg : Config) (I : Instance) : (I.renderStart cfg).initPending = false := by
  unfold Instance.renderStart
  split
  · rfl
  · rename_i h
    simpa using h
@[simp] theorem core_regs_renderStart (cfg : Config) (I : Instance) : (I.renderStart cfg).core.regs = I.core.regs := by
  unfold Instance.renderStart; split <;> simp
@[simp] theorem core_cycles_renderStart (cfg : Config) (I : Instance) :
    (I.renderStart cfg).core.cycles = I.core.cycles := by
  unfold Instance.renderStart; split <;> simp
@[simp] theorem core_inner_renderStart (cfg : Config) (I : Instance) :
    (I.renderStart cfg).core.inner = I.core.inner := by
  unfold Instance.renderStart; split <;> simp

/-- The init prefix, if it is pending (R443). -/
def prefixWrites (I : Instance) : List (Addr × Byte) := if I.initPending then initWrites I.chip else []

@[simp] theorem writes_renderStart (cfg : Config) (I : Instance) :
    (I.renderStart cfg).writes = stamp cfg 0 (prefixWrites I) := by
  unfold Instance.renderStart prefixWrites
  split <;> simp [stamp]
@[simp] theorem core_enqueued_renderStart (cfg : Config) (I : Instance) :
    (I.renderStart cfg).core.enqueued = I.core.enqueued ++ stamp cfg 0 (prefixWrites I) := by
  unfold Instance.renderStart prefixWrites
  split <;> simp [stamp]

/-- The voices of step 2: each active one advanced, and retired if it ended (R332). -/
def Instance.advanced (frames : Nat) (I : Instance) : Instance := I.mapVoices fun v => v.advance frames

theorem renderAdvance_eq (cfg : Config) (frames : Nat) (I : Instance) :
    I.renderAdvance cfg frames = (I.advanced frames).emitAll cfg (retireWrites I (I.advanced frames)) := rfl

@[simp] theorem voice_advanced (frames : Nat) (I : Instance) (s : Nat) :
    (I.advanced frames).voice s = (I.voice s).advance frames :=
  voice_mapVoices I rfl s
@[simp] theorem length_advanced (frames : Nat) (I : Instance) :
    (I.advanced frames).voices.length = I.voices.length := length_mapVoices I _
@[simp] theorem chip_advanced (frames : Nat) (I : Instance) : (I.advanced frames).chip = I.chip := rfl
@[simp] theorem params_advanced (frames : Nat) (I : Instance) : (I.advanced frames).params = I.params := rfl
@[simp] theorem bend_advanced (frames : Nat) (I : Instance) : (I.advanced frames).bend = I.bend := rfl
@[simp] theorem lfoPhase_advanced (frames : Nat) (I : Instance) : (I.advanced frames).lfoPhase = I.lfoPhase := rfl
@[simp] theorem writes_advanced (frames : Nat) (I : Instance) : (I.advanced frames).writes = I.writes := rfl
@[simp] theorem core_advanced (frames : Nat) (I : Instance) : (I.advanced frames).core = I.core := rfl
@[simp] theorem presetId_advanced (frames : Nat) (I : Instance) : (I.advanced frames).presetId = I.presetId := rfl
@[simp] theorem ageCounter_advanced (frames : Nat) (I : Instance) : (I.advanced frames).ageCounter = I.ageCounter := rfl
@[simp] theorem initPending_advanced (frames : Nat) (I : Instance) :
    (I.advanced frames).initPending = I.initPending := rfl

theorem renderEncode_eq (cfg : Config) (frames : Nat) (level : Nat → Rat) (I : Instance) :
    I.renderEncode cfg frames level =
      (I.emitAll cfg (encodeWrites cfg level I)).mapVoices fun v => v.mark cfg I.params frames := rfl

theorem renderIdle_eq (cfg : Config) (frames : Nat) (I : Instance) :
    I.renderIdle cfg frames =
      { I.emitAll cfg (idleWrites cfg I) with lfoPhase := lfoAdvance cfg I.params frames I.lfoPhase } := rfl

/-! ### What the write functions read -/

/-- The frequency of a voice reads the instance's bend, LFO phase and parameters only. -/
theorem pitch_congr {cfg : Config} {I J : Instance} (hp : I.params = J.params) (hb : I.bend = J.bend)
    (hl : I.lfoPhase = J.lfoPhase) (v : Voice) : pitch cfg I v = pitch cfg J v := by
  simp only [pitch, bendMul, vibMul, hp, hb, hl]

theorem voiceWrites_congr {cfg : Config} {I J : Instance} (hc : I.chip = J.chip) (hp : I.params = J.params)
    (hb : I.bend = J.bend) (hl : I.lfoPhase = J.lfoPhase) (level : Rat) (v : Voice) :
    voiceWrites cfg I level v = voiceWrites cfg J level v := by
  simp only [voiceWrites, pitch_congr (cfg := cfg) hp hb hl, hc, hp]

theorem encodeWrites_congr {cfg : Config} {I J : Instance} (hc : I.chip = J.chip) (hp : I.params = J.params)
    (hb : I.bend = J.bend) (hl : I.lfoPhase = J.lfoPhase) (hv : I.voices = J.voices) (level : Nat → Rat) :
    encodeWrites cfg level I = encodeWrites cfg level J := by
  simp only [encodeWrites, voiceWrites_congr (cfg := cfg) hc hp hb hl, voice_congr hv,
    slots_congr (congrArg List.length hv)]

theorem retireWrites_congr {I J K L : Instance} (hc : I.chip = K.chip) (hp : I.params = K.params)
    (hv : I.voices = K.voices) (hw : J.voices = L.voices) : retireWrites I J = retireWrites K L := by
  simp only [retireWrites, voice_congr hv, voice_congr hw, hc, hp, slots_congr (congrArg List.length hv)]

theorem idleWrites_congr {cfg : Config} {I J : Instance} (hc : I.chip = J.chip) (hp : I.params = J.params)
    (hb : ∀ c, I.busy c = J.busy c) : idleWrites cfg I = idleWrites cfg J := by
  simp only [idleWrites, hc, hp, hb]

@[simp] theorem active_mark (cfg : Config) (P : Params) (frames : Nat) (v : Voice) :
    (v.mark cfg P frames).active = v.active := by
  unfold Voice.mark; split <;> rfl
@[simp] theorem channel_mark (cfg : Config) (P : Params) (frames : Nat) (v : Voice) :
    (v.mark cfg P frames).channel = v.channel := by
  unfold Voice.mark; split <;> rfl

/-! ### The block (R330, R345) -/

/-- The write list of a block, without its times: init prefix, silences of step 2, encoder writes, silences of
step 4. -/
def blockWrites (cfg : Config) (frames : Nat) (I : Instance) : List (Addr × Byte) :=
  prefixWrites I ++ retireWrites I (I.advanced frames) ++
    encodeWrites cfg (fun s => (I.voice s).env.level) (I.advanced frames) ++ idleWrites cfg (I.advanced frames)

/-- A voice after the block: advanced, then marked if it is still active. -/
def Voice.rendered (cfg : Config) (P : Params) (frames : Nat) (v : Voice) : Voice :=
  (v.advance frames).mark cfg P frames

theorem busy_congr {I J : Instance} (h : ∀ s, (I.voice s).active = (J.voice s).active ∧ (I.voice s).channel =
    (J.voice s).channel)
    (c : Fin 4) : I.busy c = J.busy c := by
  rw [Bool.eq_iff_iff, busy_iff, busy_iff]
  simp only [h]

theorem stamp_zero_append (cfg : Config) (ws xs : List (Addr × Byte)) :
    stamp cfg 0 ws ++ stamp cfg (stamp cfg 0 ws).length xs = stamp cfg 0 (ws ++ xs) := by
  rw [stamp_append, length_stamp, Nat.zero_add]

/-- Everything steps 1 to 5 do. -/
theorem renderWrites_spec (cfg : Config) (frames : Nat) (I : Instance) :
    (I.renderWrites cfg frames).chip = I.chip ∧ (I.renderWrites cfg frames).params = I.params ∧
    (I.renderWrites cfg frames).presetId = I.presetId ∧ (I.renderWrites cfg frames).bend = I.bend ∧
    (I.renderWrites cfg frames).ageCounter = I.ageCounter ∧ (I.renderWrites cfg frames).initPending = false ∧
    (I.renderWrites cfg frames).lfoPhase = lfoAdvance cfg I.params frames I.lfoPhase ∧
    (∀ s, (I.renderWrites cfg frames).voice s = (I.voice s).rendered cfg I.params frames) ∧
    (I.renderWrites cfg frames).writes = stamp cfg 0 (blockWrites cfg frames I) ∧
    (I.renderWrites cfg frames).core =
      { I.core with enqueued := I.core.enqueued ++ stamp cfg 0 (blockWrites cfg frames I) } := by
  have hv : ((I.renderStart cfg).advanced frames).voices = (I.advanced frames).voices := by
    simp [Instance.advanced, Instance.mapVoices]
  have hr : retireWrites (I.renderStart cfg) ((I.renderStart cfg).advanced frames) =
      retireWrites I (I.advanced frames) := retireWrites_congr (by simp) (by simp) (by simp) hv
  unfold Instance.renderWrites
  simp only [renderAdvance_eq, renderEncode_eq, renderIdle_eq, hr]
  generalize hA : ((I.renderStart cfg).advanced frames).emitAll cfg (retireWrites I (I.advanced frames)) = A
  have hAv : A.voices = (I.advanced frames).voices := by simp [← hA, hv]
  have hAe : encodeWrites cfg (fun s => (I.voice s).env.level) A =
      encodeWrites cfg (fun s => (I.voice s).env.level) (I.advanced frames) :=
    encodeWrites_congr (by simp [← hA]) (by simp [← hA]) (by simp [← hA]) (by simp [← hA]) hAv _
  rw [hAe]
  generalize hB : (A.emitAll cfg (encodeWrites cfg (fun s => (I.voice s).env.level) (I.advanced frames))).mapVoices
    (fun v => v.mark cfg A.params frames) = B
  have hBv : ∀ s, B.voice s = (I.voice s).rendered cfg I.params frames := by
    intro s
    have hAvs : ∀ ws, (A.emitAll cfg ws).voice s = (I.advanced frames).voice s :=
      fun ws => voice_congr (by simp [hAv]) s
    rw [← hB, voice_mapVoices _ rfl, hAvs, voice_advanced]
    simp [Voice.rendered, ← hA]
  have hBi : idleWrites cfg B = idleWrites cfg (I.advanced frames) := by
    refine idleWrites_congr (by simp [← hB, ← hA]) (by simp [← hB, ← hA]) (busy_congr fun s => ?_)
    rw [hBv]
    simp [Voice.rendered]
  rw [hBi]
  have hw : B.writes = stamp cfg 0 (prefixWrites I ++ retireWrites I (I.advanced frames) ++
      encodeWrites cfg (fun s => (I.voice s).env.level) (I.advanced frames)) := by
    simp [← hB, ← hA, stamp_append, List.append_assoc]
  have he : B.core.enqueued = I.core.enqueued ++ B.writes := by
    simp [← hB, ← hA, List.append_assoc]
  refine ⟨by simp [← hB, ← hA], by simp [← hB, ← hA], by simp [← hB, ← hA], by simp [← hB, ← hA], by simp [← hB,
      ← hA],
    by simp [← hB, ← hA], by simp [← hB, ← hA], fun s => ?_, ?_, ?_⟩
  · rw [← hBv s]
    exact voice_congr (by simp) s
  · show (B.emitAll cfg _).writes = _
    rw [writes_emitAll, hw, stamp_zero_append, blockWrites]
  · show (B.emitAll cfg _).core = _
    have h1 : (B.emitAll cfg (idleWrites cfg (I.advanced frames))).core.enqueued =
        I.core.enqueued ++ stamp cfg 0 (blockWrites cfg frames I) := by
      rw [core_enqueued_emitAll, he, hw, List.append_assoc, stamp_zero_append, blockWrites]
    have h2 : ∀ (X : ChipCore) (q : List WriteRecord), X.enqueued = q → X.inner = I.core.inner →
        X.regs = I.core.regs →
        X.cycles = I.core.cycles → X = { I.core with enqueued := q } := by
      intro X q a b c d
      cases X
      simp_all
    exact h2 _ _ h1 (by simp [← hB, ← hA]) (by simp [← hB, ← hA]) (by simp [← hB, ← hA])

/-- The instance after a block: steps 1 to 5, `EndFrame` of the cycle budget, and some state of the core. -/
theorem renderBlock_fst (cfg : Config) (frames : Nat) (I : Instance) :
    ∃ k, (renderBlock cfg frames I).1 =
      ((I.renderWrites cfg frames).endFrame (budget cfg I.chip)).setInner k :=
  readPcm_snd _ _

/-- A block keeps the number of slots. -/
@[simp] theorem length_renderWrites (cfg : Config) (frames : Nat) (I : Instance) :
    (I.renderWrites cfg frames).voices.length = I.voices.length := by
  simp [Instance.renderWrites, renderAdvance_eq, renderEncode_eq, renderIdle_eq]

@[simp] theorem length_renderBlock (cfg : Config) (frames : Nat) (I : Instance) :
    (renderBlock cfg frames I).1.voices.length = I.voices.length := by
  obtain ⟨k, e⟩ := renderBlock_fst cfg frames I
  simp [e]

theorem length_fillOut (cfg : Config) (frames : Nat) (pcm : List (Int × Int)) :
    (fillOut cfg frames pcm).length = 2 * frames := by
  simp [fillOut, List.length_flatMap, Nat.mul_comm]

/-- A block fills the output buffer (R342, R343). -/
theorem length_renderBlock_snd (cfg : Config) (frames : Nat) (I : Instance) :
    (renderBlock cfg frames I).2.length = 2 * frames := by
  unfold renderBlock
  simp only
  split
  · exact length_fillOut _ _ _
  · simp [silence]

/-- Everything a block does to the instance but to the core's own state. -/
theorem renderBlock_spec (cfg : Config) (frames : Nat) (I : Instance) :
    (renderBlock cfg frames I).1.chip = I.chip ∧ (renderBlock cfg frames I).1.params = I.params ∧
    (renderBlock cfg frames I).1.presetId = I.presetId ∧ (renderBlock cfg frames I).1.bend = I.bend ∧
    (renderBlock cfg frames I).1.ageCounter = I.ageCounter ∧ (renderBlock cfg frames I).1.initPending = false ∧
    (renderBlock cfg frames I).1.lfoPhase = lfoAdvance cfg I.params frames I.lfoPhase ∧
    (∀ s, (renderBlock cfg frames I).1.voice s = (I.voice s).rendered cfg I.params frames) ∧
    (renderBlock cfg frames I).1.writes = stamp cfg 0 (blockWrites cfg frames I) ∧
    (renderBlock cfg frames I).1.core.enqueued = [] ∧
    (renderBlock cfg frames I).1.core.regs =
      Memory.apply I.core.regs (I.core.enqueued ++ stamp cfg 0 (blockWrites cfg frames I)) ∧
    (renderBlock cfg frames I).1.core.cycles = I.core.cycles + budget cfg I.chip := by
  obtain ⟨k, e⟩ := renderBlock_fst cfg frames I
  obtain ⟨h1, h2, h3, h4, h5, h6, h7, h8, h9, h10⟩ := renderWrites_spec cfg frames I
  rw [e]
  generalize I.renderWrites cfg frames = W at h1 h2 h3 h4 h5 h6 h7 h8 h9 h10
  refine ⟨h1, h2, h3, h4, h5, h6, h7, h8, h9, rfl, ?_, ?_⟩
  · rw [core_regs_setInner, core_regs_endFrame, h10]
  · rw [core_cycles_setInner, core_cycles_endFrame, h10]

/-- The voice of a slot after a block, by whether it was active and whether it outlives the block. -/
theorem Voice.rendered_cases (cfg : Config) (P : Params) (frames : Nat) (v : Voice) :
    (v.active = false ∧ v.rendered cfg P frames = v) ∨
    (v.active = true ∧ (v.env.advance frames).stage = .idle ∧
      v.rendered cfg P frames = { v with env := v.env.advance frames, active := false }) ∨
    (v.active = true ∧ (v.env.advance frames).stage ≠ .idle ∧
      v.rendered cfg P frames =
        { v with env := v.env.advance frames, triggered := true, penv := penvDecay cfg P frames v.penv }) := by
  unfold Voice.rendered Voice.advance Voice.mark
  by_cases h : v.active = true
  · by_cases h2 : (v.env.advance frames).stage = .idle
    · exact .inr (.inl ⟨h, h2, by simp [h, h2]⟩)
    · exact .inr (.inr ⟨h, h2, by simp [h, h2]⟩)
  · exact .inl ⟨by simpa using h, by simp [h]⟩

/-- A voice is active after a block exactly if it was and its envelope did not end. -/
theorem active_rendered (cfg : Config) (P : Params) (frames : Nat) (v : Voice) :
    (v.rendered cfg P frames).active = true ↔ v.active = true ∧ (v.env.advance frames).stage ≠ .idle := by
  rcases v.rendered_cases cfg P frames with ⟨h, e⟩ | ⟨h, h2, e⟩ | ⟨h, h2, e⟩ <;> rw [e] <;> simp [*]

/-- The output of a block in which no voice outlives step 2 (R343). -/
theorem renderBlock_silent {cfg : Config} {frames : Nat} {I : Instance}
    (h : ∀ s, (I.voice s).active = true → ((I.voice s).env.advance frames).stage = .idle) :
    (renderBlock cfg frames I).2 = List.replicate (2 * frames) 0 := by
  have ha : ((I.renderWrites cfg frames).endFrame (budget cfg I.chip)).anyActive = false := by
    rw [Bool.eq_false_iff, ne_eq, anyActive_iff]
    rintro ⟨s, hs⟩
    rw [voice_congr (voices_endFrame _ _) s, (renderWrites_spec cfg frames I).2.2.2.2.2.2.2.1, active_rendered] at hs
    exact hs.2 (h s hs.1)
  unfold renderBlock
  simp only [ha, if_false, Bool.false_eq_true, silence]

/-- The output of a block in which a voice outlives step 2: the frames the core delivers (R341, R342). -/
theorem renderBlock_sounding {cfg : Config} {frames : Nat} {I : Instance} {s : Nat}
    (h1 : (I.voice s).active = true) (h2 : ((I.voice s).env.advance frames).stage ≠ .idle) :
    (renderBlock cfg frames I).2 =
      fillOut cfg frames (((I.renderWrites cfg frames).endFrame (budget cfg I.chip)).readPcm frames).1 := by
  have ha : ((I.renderWrites cfg frames).endFrame (budget cfg I.chip)).anyActive = true := by
    rw [anyActive_iff]
    refine ⟨s, ?_⟩
    rw [voice_congr (voices_endFrame _ _) s, (renderWrites_spec cfg frames I).2.2.2.2.2.2.2.1, active_rendered]
    exact ⟨h1, h2⟩
  unfold renderBlock
  simp only [ha, if_true]

/-- The samples of frame k of the output buffer. -/
theorem fillOut_getElem? (cfg : Config) {frames k : Nat} (hk : k < frames) (pcm : List (Int × Int)) :
    (fillOut cfg frames pcm)[2 * k]? = some (((pcm[k]?).map fun x => sat cfg x.1).getD 0) ∧
    (fillOut cfg frames pcm)[2 * k + 1]? = some (((pcm[k]?).map fun x => sat cfg x.2).getD 0) := by
  have key : ∀ (g h : Nat → Sample) (n : Nat) (l : List Nat), l.length = n →
      ∀ k (_ : k < n), (l.flatMap fun x => [g x, h x])[2 * k]? = (l[k]?).map g ∧
        (l.flatMap fun x => [g x, h x])[2 * k + 1]? = (l[k]?).map h := by
    intro g h n l
    induction l generalizing n with
    | nil => intro hl k hk; simp at hl; omega
    | cons a l ih =>
      intro hl k hk
      cases k with
      | zero => simp
      | succ k =>
        have := ih (n - 1) (by simp at hl; omega) k (by omega)
        have e1 : 2 * (k + 1) = 2 * k + 1 + 1 := by omega
        have e2 : 2 * (k + 1) + 1 = 2 * k + 1 + 1 + 1 := by omega
        rw [e1]
        simpa using this
  have := key (fun k => ((pcm[k]?).map fun x => sat cfg x.1).getD 0)
    (fun k => ((pcm[k]?).map fun x => sat cfg x.2).getD 0) frames (List.range frames) (by simp) k hk
  simpa [fillOut, List.getElem?_range hk] using this

/-- The cycle budget as a quotient of naturals. -/
theorem budget_eq (cfg : Config) (chip : Chip) :
    budget cfg chip = (2 * cfg.fpb * (match chip with
      | .nes => cfg.nesClock
      | .gb => cfg.gbClock) + cfg.sr) / (2 * cfg.sr) := by
  have key : ∀ c : Nat, (rnd ((cfg.fpb : Rat) * (c : Rat) / (cfg.sr : Rat))).toNat =
      (2 * cfg.fpb * c + cfg.sr) / (2 * cfg.sr) := by
    intro c
    by_cases hz : cfg.sr = 0
    · have h0 : ⌊(1 / 2 : Rat)⌋ = 0 := by decide +kernel
      simp only [hz, rnd, Nat.cast_zero, div_zero, zero_add, h0]
      simp
    · have h1 : (cfg.sr : Rat) ≠ 0 := by exact_mod_cast hz
      have h2 : (cfg.fpb : Rat) * (c : Rat) / (cfg.sr : Rat) + 1 / 2 =
          (((2 * cfg.fpb * c + cfg.sr : Nat) : Int) : Rat) / ((2 * cfg.sr : Nat) : Rat) := by
        push_cast
        field_simp
      rw [rnd, h2, Rat.floor_intCast_div_natCast]
      norm_cast
  unfold budget
  cases chip
  · exact key _
  · exact key _

/-- The voice of slot s outlives the block exactly if it is active after step 2. -/
theorem survives_iff (cfg : Config) (I : Instance) (s : Nat) :
    ((I.advanced cfg.fpb).voice s).active = true ↔
      (I.voice s).active = true ∧ ((I.voice s).env.advance cfg.fpb).stage ≠ .idle := by
  rw [voice_advanced, Voice.advance]
  by_cases h : (I.voice s).active = true <;> simp [h]

/-- A RENDER of FPB frames on an instance. -/
theorem exec_render {s : State} {I : Instance} {f : BitVec 16} (hs : s.inst = some I) (hf : f.toNat = s.cfg.fpb) :
    exec (.render f) s = .next { s with
      inst := some (renderBlock s.cfg s.cfg.fpb I).1
      out := (renderBlock s.cfg s.cfg.fpb I).2 } := by
  show execRender f s = _
  unfold execRender
  rw [hs]
  simp only [hf, if_true]

/-- A RENDER on an instance that answers a next state had FPB frames. -/
theorem exec_render_next {s t : State} {I : Instance} {f : BitVec 16} (hs : s.inst = some I)
    (h : exec (.render f) s = .next t) : f.toNat = s.cfg.fpb := by
  by_contra hf
  have e : exec (.render f) s = .refused .frameCount := by
    show execRender f s = _
    unfold execRender
    rw [hs]
    simp only [hf, if_false]
  rw [e] at h
  cases h

end Sys2Proof.Machine
end

