-- ==== Sys2Proof/Laws/Invariant.lean ====
section
/-! SUPPORT. That each operation on an instance keeps `InstanceOk`. -/

namespace Sys2Proof.Machine

theorem mapped_of_row {a : Nat} {v : Byte} {i : Instr} (h : recordRow a v = some i) : mappedRegister a = true := by
  unfold mappedRegister
  revert h
  unfold recordRow
  split <;> simp

theorem InstanceOk.emit {cfg : Config} {I : Instance} (h : InstanceOk cfg I) {a : Addr} (v : Byte) (ha :
    mappedRegister a.toNat = true) : InstanceOk cfg (I.emit cfg a v) := by
  refine ⟨h.params, h.presetId, h.pool, h.voices, h.channelBelow, h.channels, h.ages, h.lfoLow, h.lfoHigh,
      h.bendLow, h.bendHigh, ?_, ?_,
      ?_, h.regsForm, h.regsMapped, h.regsAll⟩
  · simp [h.writeTimes, List.range_succ]
  · intro r hr
    rcases (by simpa using hr : r ∈ I.writes ∨ r = ⟨I.writes.length * cfg.writeStep, a, v⟩) with hr | hr
    · exact h.writesMapped r hr
    · subst hr; exact ha
  · intro r hr
    rcases (by simpa using hr : r ∈ I.core.enqueued ∨ r = ⟨I.writes.length * cfg.writeStep, a, v⟩) with hr | hr
    · exact h.enqueuedMapped r hr
    · subst hr; exact ha

theorem ParamsOk.setField {cfg : Config} {P : Params} (hw : 0 < cfg.wavetables.length) (h : ParamsOk cfg P) (id :
    Nat) (v : Int) : ParamsOk cfg (setParamField id (clampParam cfg id v) P) := by
  unfold clampParam paramRange clamp
  unfold setParamField
  split <;> first
    | exact h
    | constructor <;> first
      | exact h.1 | exact h.2 | exact h.3 | exact h.4 | exact h.5 | exact h.6 | exact h.7 | exact h.8 | exact h.9
      | exact h.10 | exact h.11 | exact h.12 | exact h.13 | exact h.14 | exact h.15 | exact h.16 | exact h.17
      | exact h.18
      | (simp only; omega)

theorem ParamsOk.ofPreset {cfg : Config} {P : Params} (hw : 0 < cfg.wavetables.length) (h : ParamsOk cfg P) (q :
    Params) : ParamsOk cfg (loadPreset cfg q P) := by
  unfold loadPreset
  generalize presetIds = l
  induction l generalizing P with
  | nil => exact h
  | cons a l ih => exact ih (ParamsOk.setField hw h a _)

theorem InstanceOk.withParams {cfg : Config} {I : Instance} (h : InstanceOk cfg I) {P : Params} (hP :
    ParamsOk cfg P) : InstanceOk cfg { I with params := P } :=
  ⟨hP, h.presetId, h.pool, h.voices, h.channelBelow, h.channels, h.ages, h.lfoLow, h.lfoHigh, h.bendLow,
      h.bendHigh, h.writeTimes,
      h.writesMapped, h.enqueuedMapped, h.regsForm, h.regsMapped, h.regsAll⟩

theorem InstanceOk.withPreset {cfg : Config} {I : Instance} {P : Params} {n : Nat} (h : InstanceOk cfg I) (hP :
    ParamsOk cfg P) (hl : n < cfg.presets.length) : InstanceOk cfg { I with presetId := n, params := P } :=
 ⟨hP, hl, h.pool, h.voices, h.channelBelow, h.channels, h.ages, h.lfoLow, h.lfoHigh, h.bendLow, h.bendHigh,
     h.writeTimes, h.writesMapped,
     h.enqueuedMapped, h.regsForm, h.regsMapped, h.regsAll⟩

theorem InstanceOk.withChip {cfg : Config} {I : Instance} {c : Chip} (h : InstanceOk cfg I) (hp :
    PoolOk cfg I.deactivateAll.ageCounter I.deactivateAll.voice) :
    InstanceOk cfg { I.deactivateAll with chip := c, initPending := true } :=
  ⟨h.params, h.presetId, (length_deactivateAll I).trans h.pool, hp.voices, hp.below, hp.channels, hp.ages,
      h.lfoLow, h.lfoHigh, h.bendLow, h.bendHigh, h.writeTimes,
      h.writesMapped, h.enqueuedMapped, h.regsForm, h.regsMapped, h.regsAll⟩

theorem InstanceOk.setParam {cfg : Config} (hc : cfg.wf) {I : Instance} (h : InstanceOk cfg I) (id : Nat) (v :
    Int) : InstanceOk cfg (I.setParam cfg id v) := by
  have hw : 0 < cfg.wavetables.length := hc.2.2.2.2.2.2.2.2.2.2.2.1
  unfold Instance.setParam
  split
  · unfold Instance.setChip
    simp only
    split
    · exact h
    · have hp := h.poolOk.deactivateAll
      exact InstanceOk.withChip h hp
  split
  · unfold Instance.setPreset
    split
    · exact h
    · split
      · exact h
      · rename_i q hq
        have hl : v.toNat < cfg.presets.length := by
          by_contra hx
          rw [List.getElem?_eq_none (by omega)] at hq; cases hq
        exact InstanceOk.withPreset h (ParamsOk.ofPreset hw h.params q) hl
  split
  · exact InstanceOk.withParams h (ParamsOk.setField hw h.params id v)
  · exact h

theorem mapped_silence (chip : Chip) (P : Params) (c : Fin 4) : ∀ w ∈ silenceWrites chip P c,
    mappedRegister w.1.toNat = true := by
  intro w hw
  cases chip <;> revert hw <;> revert c <;> intro c <;> fin_cases c <;> intro hw <;>
    simp only [silenceWrites, silenceNes, silenceGb, List.mem_singleton] at hw <;> subst hw <;> rfl

theorem mapped_prefix (I : Instance) : ∀ w ∈ prefixWrites I, mappedRegister w.1.toNat = true := by
  intro w hw
  unfold prefixWrites at hw
  split at hw
  · cases hc : I.chip <;> rw [hc] at hw <;> simp [initWrites, nesInit, gbInit] at hw <;> rcases hw with rfl |
      hw <;> first | rfl | (rcases hw with rfl | rfl <;> rfl)
  · simp at hw

theorem mapped_voiceWrites (cfg : Config) (I : Instance) (l : Rat) (v : Voice) : ∀ w ∈ voiceWrites cfg I l v,
    mappedRegister w.1.toNat = true := by
  have key : ∀ ws : List (Addr × Byte), (ws.map Prod.fst).all (fun a => mappedRegister a.toNat) = true → ∀ w ∈ ws,
      mappedRegister w.1.toNat = true := by
    intro ws h w hw
    exact List.all_eq_true.1 h w.1 (List.mem_map_of_mem hw)
  apply key
  unfold voiceWrites
  simp only
  generalize pitch cfg I v = f
  generalize qvol l _ _ = q
  generalize (!v.triggered) = t
  cases I.chip
  · simp only [encNes]
    split <;> cases t <;> rfl
  · simp only [encGb]
    split <;> cases t <;> rfl

theorem mapped_block (cfg : Config) (frames : Nat) (I : Instance) : ∀ w ∈ blockWrites cfg frames I,
    mappedRegister w.1.toNat = true := by
  intro w hw
  simp only [blockWrites, List.mem_append, retireWrites, encodeWrites, idleWrites, List.mem_flatMap] at hw
  rcases hw with ((hw | ⟨s, -, hw⟩) | ⟨s, -, hw⟩) | ⟨s, -, hw⟩
  · exact mapped_prefix I w hw
  · split at hw
    · exact mapped_silence _ _ _ w hw
    · simp at hw
  · split at hw
    · exact mapped_voiceWrites _ _ _ _ w hw
    · simp at hw
  · split at hw
    · simp at hw
    · exact mapped_silence _ _ _ w hw

theorem penvDecay_range (cfg : Config) (P : Params) (n : Nat) (p : Rat) (h0 : -24 ≤ p) (h1 : p ≤ 24) :
    -24 ≤ penvDecay cfg P n p ∧ penvDecay cfg P n p ≤ 24 := by
  unfold penvDecay
  split
  · exact ⟨h0, h1⟩
  · have hd : (0:Rat) ≤ ((P.penvDepth.natAbs : Rat) * cfg.penvDiv) / ((P.penvSpeed : Rat) * cfg.sr) * n :=
      by positivity
    simp only
    generalize ((P.penvDepth.natAbs : Rat) * cfg.penvDiv) / ((P.penvSpeed : Rat) * cfg.sr) * n = d at hd
    split
    · refine ⟨?_, ?_⟩
      · exact le_trans (by norm_num) (le_max_left _ _)
      · exact max_le (by norm_num) (by linarith)
    · split
      · refine ⟨le_min (by norm_num) (by linarith), le_trans (min_le_left _ _) (by norm_num)⟩
      · exact ⟨h0, h1⟩

theorem VoiceOk.rendered {cfg : Config} {P : Params} {ctr n : Nat} {v : Voice} (h : VoiceOk ctr v) : VoiceOk ctr
    (v.rendered cfg P n) ∧
   ((v.rendered cfg P n).active = true → v.active = true ∧ (v.rendered cfg P n).channel = v.channel ∧
       (v.rendered cfg P n).age = v.age) := by
  unfold Voice.rendered
  have ha : VoiceOk ctr (v.advance n) ∧ ((v.advance n).active = true → v.active = true) ∧
      (v.advance n).channel = v.channel ∧ (v.advance n).age = v.age := by
    unfold Voice.advance
    split
    · rename_i hv
      exact ⟨⟨h.note, h.velocity, h.env.advance n, h.penvLow, h.penvHigh, fun h => by simpa using h,
          fun _ => h.activeVelocity hv, fun _ => h.activeAge hv⟩, fun _ => hv, rfl, rfl⟩
    · exact ⟨h, id, rfl, rfl⟩
  generalize v.advance n = w at ha
  obtain ⟨h, h1, h2, h3⟩ := ha
  unfold Voice.mark
  split
  · have := penvDecay_range cfg P n w.penv h.penvLow h.penvHigh
    exact ⟨⟨h.note, h.velocity, h.env, this.1, this.2, h.activeStage, h.activeVelocity, h.activeAge⟩,
        fun ha => ⟨h1 ha, h2, h3⟩⟩
  · exact ⟨h, fun ha => ⟨h1 ha, h2, h3⟩⟩

theorem lfoAdvance_range (cfg : Config) (P : Params) (n : Nat) (x : Rat) : 0 ≤ lfoAdvance cfg P n x ∧
    lfoAdvance cfg P n x < 1 := by
  unfold lfoAdvance
  simp only
  generalize x + _ = y
  have := Int.floor_le y; have := Int.lt_floor_add_one y
  constructor <;> linarith

theorem InstanceOk.render {cfg : Config} {I : Instance} (h : InstanceOk cfg I) (frames : Nat) : InstanceOk cfg
    (renderBlock cfg frames I).1 := by
  obtain ⟨k, e⟩ := renderBlock_fst cfg frames I
  rw [e]
  obtain ⟨h1, h2, h3, h4, h5, h6, h7, h8, h9, h10⟩ := renderWrites_spec cfg frames I
  have hlen := (length_renderWrites cfg frames I).trans h.pool
  generalize I.renderWrites cfg frames = J at *
  have hw : ∀ r ∈ stamp cfg 0 (blockWrites cfg frames I), mappedRegister r.addr.toNat = true :=
      fun r hr => mapped_block cfg frames I _ (mem_stamp hr)
  have hp : PoolOk cfg I.ageCounter J.voice := by
    refine PoolOk.sub h.poolOk (fun s => ?_) fun s hs => ?_
    · rw [h8]; exact (VoiceOk.rendered (h.voices s)).1
    · rw [h8] at hs ⊢; exact (VoiceOk.rendered (h.voices s)).2 hs
  rw [← h5] at hp
  have hl := lfoAdvance_range cfg I.params frames I.lfoPhase
  have hq : ∀ r ∈ J.core.enqueued, mappedRegister r.addr.toNat = true := by
    rw [h10]; intro r hr
    rcases List.mem_append.1 hr with hr | hr
    · exact h.enqueuedMapped r hr
    · exact hw r hr
  refine ⟨by simpa [h2] using h.params, by simpa [h3] using h.presetId, by simpa using hlen, hp.voices, hp.below,
      hp.channels, hp.ages,
      by simpa [h7] using hl.1, by simpa [h7] using hl.2, by simpa [h4] using h.bendLow,
      by simpa [h4] using h.bendHigh, ?_, ?_, ?_, ?_, ?_, ?_⟩
  · simp [h9, times_stamp]
  · simpa [h9] using hw
  · simp
  · simp only [core_regs_setInner, core_regs_endFrame]
    exact Memory.wf_apply _ (by rw [h10]; exact h.regsForm)
  · simp only [core_regs_setInner, core_regs_endFrame]
    intro c hc
    rcases Memory.mem_apply hc with hc | ⟨r, hr, e⟩
    · rw [h10] at hc; exact h.regsMapped c hc
    · rw [e]; exact hq r hr
  · simp only [core_regs_setInner, core_regs_endFrame]
    rw [Memory.addresses_apply (by rw [h10]; exact h.regsForm) fun r hr => ?_, h10]
    · exact h.regsAll
    · rw [h10, h.regsAll]; exact mem_chipRegisters (hq r hr)

theorem InstanceOk.modWheel {cfg : Config} {I : Instance} (h : InstanceOk cfg I) {x : Nat} (hx : x < 128) :
    InstanceOk cfg (I.modWheel cfg x) := by
  unfold Instance.modWheel
  split
  · exact h
  · refine InstanceOk.withParams h ?_
    have hd : modWheelDepth x ≤ 100 := by
      unfold modWheelDepth rnd
      have : ⌊(x:Rat) * 100 / 127 + 1 / 2⌋ < 101 := by
        rw [Int.floor_lt]
        have : (x : Rat) ≤ 127 := by exact_mod_cast (by omega)
        push_cast; rw [div_add_div _ _ (by norm_num) (by norm_num), div_lt_iff₀ (by norm_num)]; linarith
      omega
    exact ⟨h.1.1, h.1.2, h.1.3, h.1.4, h.1.5, h.1.6, hd, h.1.8, h.1.9, h.1.10, h.1.11, h.1.12, h.1.13, h.1.14,
        h.1.15, h.1.16, h.1.17, h.1.18⟩

theorem InstanceOk.bend {cfg : Config} (hc : cfg.wf) {I : Instance} (h : InstanceOk cfg I) {b : Nat} (hb :
    b < 16384) : InstanceOk cfg { I with bend := bendSemitones cfg b } := by
  have hr : (0:Rat) < cfg.bendRange := by exact_mod_cast hc.2.2.2.2.2.2.1
  have hb' : (b : Rat) < 16384 := by exact_mod_cast hb
  have hb0 : (0 : Rat) ≤ b := by positivity
  refine ⟨h.params, h.presetId, h.pool, h.voices, h.channelBelow, h.channels, h.ages, h.lfoLow, h.lfoHigh, ?_, ?_,
      h.writeTimes,
      h.writesMapped, h.enqueuedMapped, h.regsForm, h.regsMapped, h.regsAll⟩
  · simp only [bendSemitones]; rw [le_div_iff₀ (by norm_num)]; nlinarith
  · simp only [bendSemitones]; rw [div_lt_iff₀ (by norm_num)]; nlinarith

/-- An operation on the pool that leaves each voice as it is or releases it. -/
theorem InstanceOk.releaseWhere {cfg : Config} {I : Instance} (h : InstanceOk cfg I) {p : Voice → Bool}
    (hp : p Voice.absent = false) : InstanceOk cfg (I.mapVoices fun v => if p v then v.release else v) := by
  have e := fun t => voice_mapVoices I (f := fun v => if p v then v.release else v) (by simp [hp]) t
  refine h.withPool (PoolOk.sub h.poolOk (fun t => ?_) fun t ht => ?_) (by simp) rfl
  · rw [e]; split
    · exact (h.voices t).release
    · exact h.voices t
  · rw [e] at ht ⊢; split at ht
    · simp at ht
    · rename_i hn; rw [if_neg hn]; exact ⟨ht, rfl, rfl⟩

end Sys2Proof.Machine
end

