-- ==== Sys2Proof/Laws/PerInstr.lean ====
section
/-! SUPPORT. Statements made per instruction. `EncodesInRow`: the packet of an instruction has the length of its row
of spec/opcode_table.json and the row's fixed bits. -/

namespace Sys2Proof.Laws

/-- A packet has `nbits` bits and, under `mask`, the bits `fixed`. -/
def inRow (p : Packet) (nbits mask fixed : Nat) : Prop :=
  match p with
  | .command w => nbits = 32 ∧ w &&& BitVec.ofNat 32 mask = BitVec.ofNat 32 fixed
  | .record r => nbits = 24 ∧ r &&& BitVec.ofNat 24 mask = BitVec.ofNat 24 fixed

/-- A register-write pattern under the row mask of R123 keeps its address. -/
theorem inRow_record (a : Addr) (v : Byte) : inRow (recordPacket a v) 24 0xFFFF00 ((a ++ 0#8).toNat) := by
  refine ⟨rfl, ?_⟩
  apply BitVec.eq_of_getLsbD_eq
  intro i hi
  simp only [BitVec.ofNat_toNat, BitVec.setWidth_eq, BitVec.getLsbD_and, BitVec.getLsbD_append]
  interval_cases i <;> simp

/-- A MIDI word under a mask is masked byte by byte. -/
theorem midiWord_and (s a b ms ma mb : Byte) :
    midiWord s a b &&& (0xFF#8 ++ ms ++ ma ++ mb : BitVec 32) = midiWord (s &&& ms) (a &&& ma) (b &&& mb) := by
  apply BitVec.eq_of_getLsbD_eq
  intro i hi
  simp only [midiWord, BitVec.getLsbD_and, BitVec.getLsbD_append]
  grind

/-- A MIDI word is in a row if each of its bytes has the row's bits. -/
theorem inRow_midi {s a b : Byte} (ms ma mb fs fa fb : Byte) {mask fixed : Nat}
    (hm : BitVec.ofNat 32 mask = (0xFF#8 ++ ms ++ ma ++ mb : BitVec 32))
    (hf : BitVec.ofNat 32 fixed = midiWord fs fa fb)
    (hs : s &&& ms = fs) (ha : a &&& ma = fa) (hb : b &&& mb = fb) :
    inRow (.command (midiWord s a b)) 32 mask fixed := by
  refine ⟨rfl, ?_⟩
  rw [hm, hf, midiWord_and, hs, ha, hb]

theorem nibble_and (t ch : BitVec 4) : (t ++ ch) &&& 0xF0#8 = t ++ 0#4 := by
  revert t ch
  decide

theorem seven_and (b : BitVec 1) (x : BitVec 7) : (b ++ x) &&& 0x80#8 = b ++ 0#7 := by
  revert b x
  decide

theorem byte_and_zero (x : Byte) : x &&& 0x00#8 = 0 := by simp

theorem byte_and_all (x : Byte) : x &&& 0xFF#8 = x := by
  revert x
  decide

namespace EncodesInRow

/-- An instruction's packet has the length and the fixed bits (mask, match) of its row of the opcode table. -/
def Statement (i : Instr) : Prop :=
  match i with
  | .midiMalformedStatus _ _ _ => inRow (encode i) 32 0xFF800000 0x00000000
  | .midiMalformedData1 _ _ _ => inRow (encode i) 32 0xFF808000 0x00808000
  | .midiMalformedData2 _ _ _ => inRow (encode i) 32 0xFF800080 0x00800080
  | .noteOff _ _ _ => inRow (encode i) 32 0xFFF08080 0x00800000
  | .noteOnV0 _ _ => inRow (encode i) 32 0xFFF080FF 0x00900000
  | .noteOn _ _ _ => inRow (encode i) 32 0xFFF08080 0x00900000
  | .polyAt _ _ _ => inRow (encode i) 32 0xFFF08080 0x00A00000
  | .ccModwheel _ _ => inRow (encode i) 32 0xFFF0FF80 0x00B00100
  | .ccAllNotesOff _ _ => inRow (encode i) 32 0xFFF0FF80 0x00B07B00
  | .ccOther _ _ _ => inRow (encode i) 32 0xFFF08080 0x00B00000
  | .progChange _ _ _ => inRow (encode i) 32 0xFFF08000 0x00C00000
  | .chanPressure _ _ _ => inRow (encode i) 32 0xFFF08000 0x00D00000
  | .pitchBend _ _ => inRow (encode i) 32 0xFFF08080 0x00E00000
  | .midiSystem _ _ _ => inRow (encode i) 32 0xFFF00000 0x00F00000
  | .create _ => inRow (encode i) 32 0xFFFFFFFE 0x01000000
  | .destroy => inRow (encode i) 32 0xFFFFFFFF 0x02000000
  | .render _ => inRow (encode i) 32 0xFFFF0000 0x03000000
  | .setParam _ _ => inRow (encode i) 32 0xFF000000 0x04000000
  | .getParam _ => inRow (encode i) 32 0xFF00FFFF 0x05000000
  | .reserved _ => inRow (encode i) 32 0x00000000 0x00000000
  | .nesPulse1Ctrl _ => inRow (encode i) 24 0xFFFF00 0x400000
  | .nesPulse1Sweep _ => inRow (encode i) 24 0xFFFF00 0x400100
  | .nesPulse1Lo _ => inRow (encode i) 24 0xFFFF00 0x400200
  | .nesPulse1Hi _ => inRow (encode i) 24 0xFFFF00 0x400300
  | .nesPulse2Ctrl _ => inRow (encode i) 24 0xFFFF00 0x400400
  | .nesPulse2Sweep _ => inRow (encode i) 24 0xFFFF00 0x400500
  | .nesPulse2Lo _ => inRow (encode i) 24 0xFFFF00 0x400600
  | .nesPulse2Hi _ => inRow (encode i) 24 0xFFFF00 0x400700
  | .nesTriLinear _ => inRow (encode i) 24 0xFFFF00 0x400800
  | .nesTriLo _ => inRow (encode i) 24 0xFFFF00 0x400A00
  | .nesTriHi _ => inRow (encode i) 24 0xFFFF00 0x400B00
  | .nesNoiseCtrl _ => inRow (encode i) 24 0xFFFF00 0x400C00
  | .nesNoiseMode _ => inRow (encode i) 24 0xFFFF00 0x400E00
  | .nesNoiseLen _ => inRow (encode i) 24 0xFFFF00 0x400F00
  | .nesStatus _ => inRow (encode i) 24 0xFFFF00 0x401500
  | .nesFrameCounter _ => inRow (encode i) 24 0xFFFF00 0x401700
  | .gbNr10 _ => inRow (encode i) 24 0xFFFF00 0xFF1000
  | .gbNr11 _ => inRow (encode i) 24 0xFFFF00 0xFF1100
  | .gbNr12 _ => inRow (encode i) 24 0xFFFF00 0xFF1200
  | .gbNr13 _ => inRow (encode i) 24 0xFFFF00 0xFF1300
  | .gbNr14 _ => inRow (encode i) 24 0xFFFF00 0xFF1400
  | .gbNr21 _ => inRow (encode i) 24 0xFFFF00 0xFF1600
  | .gbNr22 _ => inRow (encode i) 24 0xFFFF00 0xFF1700
  | .gbNr23 _ => inRow (encode i) 24 0xFFFF00 0xFF1800
  | .gbNr24 _ => inRow (encode i) 24 0xFFFF00 0xFF1900
  | .gbNr30 _ => inRow (encode i) 24 0xFFFF00 0xFF1A00
  | .gbNr31 _ => inRow (encode i) 24 0xFFFF00 0xFF1B00
  | .gbNr32 _ => inRow (encode i) 24 0xFFFF00 0xFF1C00
  | .gbNr33 _ => inRow (encode i) 24 0xFFFF00 0xFF1D00
  | .gbNr34 _ => inRow (encode i) 24 0xFFFF00 0xFF1E00
  | .gbNr41 _ => inRow (encode i) 24 0xFFFF00 0xFF2000
  | .gbNr42 _ => inRow (encode i) 24 0xFFFF00 0xFF2100
  | .gbNr43 _ => inRow (encode i) 24 0xFFFF00 0xFF2200
  | .gbNr44 _ => inRow (encode i) 24 0xFFFF00 0xFF2300
  | .gbNr50 _ => inRow (encode i) 24 0xFFFF00 0xFF2400
  | .gbNr51 _ => inRow (encode i) 24 0xFFFF00 0xFF2500
  | .gbNr52 _ => inRow (encode i) 24 0xFFFF00 0xFF2600
  | .gbWaveRam0 _ => inRow (encode i) 24 0xFFFF00 0xFF3000
  | .gbWaveRam1 _ => inRow (encode i) 24 0xFFFF00 0xFF3100
  | .gbWaveRam2 _ => inRow (encode i) 24 0xFFFF00 0xFF3200
  | .gbWaveRam3 _ => inRow (encode i) 24 0xFFFF00 0xFF3300
  | .gbWaveRam4 _ => inRow (encode i) 24 0xFFFF00 0xFF3400
  | .gbWaveRam5 _ => inRow (encode i) 24 0xFFFF00 0xFF3500
  | .gbWaveRam6 _ => inRow (encode i) 24 0xFFFF00 0xFF3600
  | .gbWaveRam7 _ => inRow (encode i) 24 0xFFFF00 0xFF3700
  | .gbWaveRam8 _ => inRow (encode i) 24 0xFFFF00 0xFF3800
  | .gbWaveRam9 _ => inRow (encode i) 24 0xFFFF00 0xFF3900
  | .gbWaveRamA _ => inRow (encode i) 24 0xFFFF00 0xFF3A00
  | .gbWaveRamB _ => inRow (encode i) 24 0xFFFF00 0xFF3B00
  | .gbWaveRamC _ => inRow (encode i) 24 0xFFFF00 0xFF3C00
  | .gbWaveRamD _ => inRow (encode i) 24 0xFFFF00 0xFF3D00
  | .gbWaveRamE _ => inRow (encode i) 24 0xFFFF00 0xFF3E00
  | .gbWaveRamF _ => inRow (encode i) 24 0xFFFF00 0xFF3F00

theorem midiMalformedStatus (status : BitVec 7) (d1 : Byte) (d2 : Byte) : Statement (.midiMalformedStatus status d1 d2) :=
  inRow_midi 0x80 0x00 0x00 0x00 0x00 0x00 rfl rfl (seven_and _ _) (byte_and_zero _) (byte_and_zero _)

theorem midiMalformedData1 (status : BitVec 7) (d1 : BitVec 7) (d2 : Byte) : Statement (.midiMalformedData1 status d1 d2) :=
  inRow_midi 0x80 0x80 0x00 0x80 0x80 0x00 rfl rfl (seven_and _ _) (seven_and _ _) (byte_and_zero _)

theorem midiMalformedData2 (status : BitVec 7) (d1 : BitVec 7) (d2 : BitVec 7) : Statement (.midiMalformedData2 status d1 d2) :=
  inRow_midi 0x80 0x00 0x80 0x80 0x00 0x80 rfl rfl (seven_and _ _) (byte_and_zero _) (seven_and _ _)

theorem noteOff (ch : BitVec 4) (n : BitVec 7) (v : BitVec 7) : Statement (.noteOff ch n v) :=
  inRow_midi 0xF0 0x80 0x80 0x80 0x00 0x00 rfl rfl (nibble_and _ _) (seven_and _ _) (seven_and _ _)

theorem noteOnV0 (ch : BitVec 4) (n : BitVec 7) : Statement (.noteOnV0 ch n) :=
  inRow_midi 0xF0 0x80 0xFF 0x90 0x00 0x00 rfl rfl (nibble_and _ _) (seven_and _ _) (byte_and_all _)

theorem noteOn (ch : BitVec 4) (n : BitVec 7) (v : BitVec 7) : Statement (.noteOn ch n v) :=
  inRow_midi 0xF0 0x80 0x80 0x90 0x00 0x00 rfl rfl (nibble_and _ _) (seven_and _ _) (seven_and _ _)

theorem polyAt (ch : BitVec 4) (n : BitVec 7) (x : BitVec 7) : Statement (.polyAt ch n x) :=
  inRow_midi 0xF0 0x80 0x80 0xA0 0x00 0x00 rfl rfl (nibble_and _ _) (seven_and _ _) (seven_and _ _)

theorem ccModwheel (ch : BitVec 4) (x : BitVec 7) : Statement (.ccModwheel ch x) :=
  inRow_midi 0xF0 0xFF 0x80 0xB0 0x01 0x00 rfl rfl (nibble_and _ _) (byte_and_all _) (seven_and _ _)

theorem ccAllNotesOff (ch : BitVec 4) (x : BitVec 7) : Statement (.ccAllNotesOff ch x) :=
  inRow_midi 0xF0 0xFF 0x80 0xB0 0x7B 0x00 rfl rfl (nibble_and _ _) (byte_and_all _) (seven_and _ _)

theorem ccOther (ch : BitVec 4) (k : BitVec 7) (x : BitVec 7) : Statement (.ccOther ch k x) :=
  inRow_midi 0xF0 0x80 0x80 0xB0 0x00 0x00 rfl rfl (nibble_and _ _) (seven_and _ _) (seven_and _ _)

theorem progChange (ch : BitVec 4) (p : BitVec 7) (pad : Byte) : Statement (.progChange ch p pad) :=
  inRow_midi 0xF0 0x80 0x00 0xC0 0x00 0x00 rfl rfl (nibble_and _ _) (seven_and _ _) (byte_and_zero _)

theorem chanPressure (ch : BitVec 4) (x : BitVec 7) (pad : Byte) : Statement (.chanPressure ch x pad) :=
  inRow_midi 0xF0 0x80 0x00 0xD0 0x00 0x00 rfl rfl (nibble_and _ _) (seven_and _ _) (byte_and_zero _)

theorem pitchBend (ch : BitVec 4) (b : BitVec 14) : Statement (.pitchBend ch b) :=
  inRow_midi 0xF0 0x80 0x80 0xE0 0x00 0x00 rfl rfl (nibble_and _ _) (seven_and _ _) (seven_and _ _)

theorem midiSystem (lo : BitVec 4) (d1 : BitVec 7) (d2 : Byte) : Statement (.midiSystem lo d1 d2) :=
  inRow_midi 0xF0 0x00 0x00 0xF0 0x00 0x00 rfl rfl (nibble_and _ _) (byte_and_zero _) (byte_and_zero _)

theorem create (chip : Chip) : Statement (.create chip) := by
  cases chip <;> exact ⟨rfl, rfl⟩

theorem destroy : Statement .destroy := ⟨rfl, rfl⟩

theorem render (frames : BitVec 16) : Statement (.render frames) := by
  refine ⟨rfl, ?_⟩
  apply BitVec.eq_of_getLsbD_eq
  intro i hi
  simp only [BitVec.getLsbD_and, BitVec.getLsbD_append]
  interval_cases i <;> simp

theorem setParam (id : BitVec 8) (value : BitVec 16) : Statement (.setParam id value) := by
  refine ⟨rfl, ?_⟩
  apply BitVec.eq_of_getLsbD_eq
  intro i hi
  simp only [BitVec.getLsbD_and, BitVec.getLsbD_append]
  interval_cases i <;> simp

theorem getParam (id : BitVec 8) : Statement (.getParam id) := by
  refine ⟨rfl, ?_⟩
  apply BitVec.eq_of_getLsbD_eq
  intro i hi
  simp only [BitVec.getLsbD_and, BitVec.getLsbD_append]
  interval_cases i <;> simp

theorem reserved (w : Word) : Statement (.reserved w) := by
  refine ⟨rfl, ?_⟩
  simp

theorem nesPulse1Ctrl (value : Byte) : Statement (.nesPulse1Ctrl value) := inRow_record 0x4000 value

theorem nesPulse1Sweep (value : Byte) : Statement (.nesPulse1Sweep value) := inRow_record 0x4001 value

theorem nesPulse1Lo (value : Byte) : Statement (.nesPulse1Lo value) := inRow_record 0x4002 value

theorem nesPulse1Hi (value : Byte) : Statement (.nesPulse1Hi value) := inRow_record 0x4003 value

theorem nesPulse2Ctrl (value : Byte) : Statement (.nesPulse2Ctrl value) := inRow_record 0x4004 value

theorem nesPulse2Sweep (value : Byte) : Statement (.nesPulse2Sweep value) := inRow_record 0x4005 value

theorem nesPulse2Lo (value : Byte) : Statement (.nesPulse2Lo value) := inRow_record 0x4006 value

theorem nesPulse2Hi (value : Byte) : Statement (.nesPulse2Hi value) := inRow_record 0x4007 value

theorem nesTriLinear (value : Byte) : Statement (.nesTriLinear value) := inRow_record 0x4008 value

theorem nesTriLo (value : Byte) : Statement (.nesTriLo value) := inRow_record 0x400A value

theorem nesTriHi (value : Byte) : Statement (.nesTriHi value) := inRow_record 0x400B value

theorem nesNoiseCtrl (value : Byte) : Statement (.nesNoiseCtrl value) := inRow_record 0x400C value

theorem nesNoiseMode (value : Byte) : Statement (.nesNoiseMode value) := inRow_record 0x400E value

theorem nesNoiseLen (value : Byte) : Statement (.nesNoiseLen value) := inRow_record 0x400F value

theorem nesStatus (value : Byte) : Statement (.nesStatus value) := inRow_record 0x4015 value

theorem nesFrameCounter (value : Byte) : Statement (.nesFrameCounter value) := inRow_record 0x4017 value

theorem gbNr10 (value : Byte) : Statement (.gbNr10 value) := inRow_record 0xFF10 value

theorem gbNr11 (value : Byte) : Statement (.gbNr11 value) := inRow_record 0xFF11 value

theorem gbNr12 (value : Byte) : Statement (.gbNr12 value) := inRow_record 0xFF12 value

theorem gbNr13 (value : Byte) : Statement (.gbNr13 value) := inRow_record 0xFF13 value

theorem gbNr14 (value : Byte) : Statement (.gbNr14 value) := inRow_record 0xFF14 value

theorem gbNr21 (value : Byte) : Statement (.gbNr21 value) := inRow_record 0xFF16 value

theorem gbNr22 (value : Byte) : Statement (.gbNr22 value) := inRow_record 0xFF17 value

theorem gbNr23 (value : Byte) : Statement (.gbNr23 value) := inRow_record 0xFF18 value

theorem gbNr24 (value : Byte) : Statement (.gbNr24 value) := inRow_record 0xFF19 value

theorem gbNr30 (value : Byte) : Statement (.gbNr30 value) := inRow_record 0xFF1A value

theorem gbNr31 (value : Byte) : Statement (.gbNr31 value) := inRow_record 0xFF1B value

theorem gbNr32 (value : Byte) : Statement (.gbNr32 value) := inRow_record 0xFF1C value

theorem gbNr33 (value : Byte) : Statement (.gbNr33 value) := inRow_record 0xFF1D value

theorem gbNr34 (value : Byte) : Statement (.gbNr34 value) := inRow_record 0xFF1E value

theorem gbNr41 (value : Byte) : Statement (.gbNr41 value) := inRow_record 0xFF20 value

theorem gbNr42 (value : Byte) : Statement (.gbNr42 value) := inRow_record 0xFF21 value

theorem gbNr43 (value : Byte) : Statement (.gbNr43 value) := inRow_record 0xFF22 value

theorem gbNr44 (value : Byte) : Statement (.gbNr44 value) := inRow_record 0xFF23 value

theorem gbNr50 (value : Byte) : Statement (.gbNr50 value) := inRow_record 0xFF24 value

theorem gbNr51 (value : Byte) : Statement (.gbNr51 value) := inRow_record 0xFF25 value

theorem gbNr52 (value : Byte) : Statement (.gbNr52 value) := inRow_record 0xFF26 value

theorem gbWaveRam0 (value : Byte) : Statement (.gbWaveRam0 value) := inRow_record 0xFF30 value

theorem gbWaveRam1 (value : Byte) : Statement (.gbWaveRam1 value) := inRow_record 0xFF31 value

theorem gbWaveRam2 (value : Byte) : Statement (.gbWaveRam2 value) := inRow_record 0xFF32 value

theorem gbWaveRam3 (value : Byte) : Statement (.gbWaveRam3 value) := inRow_record 0xFF33 value

theorem gbWaveRam4 (value : Byte) : Statement (.gbWaveRam4 value) := inRow_record 0xFF34 value

theorem gbWaveRam5 (value : Byte) : Statement (.gbWaveRam5 value) := inRow_record 0xFF35 value

theorem gbWaveRam6 (value : Byte) : Statement (.gbWaveRam6 value) := inRow_record 0xFF36 value

theorem gbWaveRam7 (value : Byte) : Statement (.gbWaveRam7 value) := inRow_record 0xFF37 value

theorem gbWaveRam8 (value : Byte) : Statement (.gbWaveRam8 value) := inRow_record 0xFF38 value

theorem gbWaveRam9 (value : Byte) : Statement (.gbWaveRam9 value) := inRow_record 0xFF39 value

theorem gbWaveRamA (value : Byte) : Statement (.gbWaveRamA value) := inRow_record 0xFF3A value

theorem gbWaveRamB (value : Byte) : Statement (.gbWaveRamB value) := inRow_record 0xFF3B value

theorem gbWaveRamC (value : Byte) : Statement (.gbWaveRamC value) := inRow_record 0xFF3C value

theorem gbWaveRamD (value : Byte) : Statement (.gbWaveRamD value) := inRow_record 0xFF3D value

theorem gbWaveRamE (value : Byte) : Statement (.gbWaveRamE value) := inRow_record 0xFF3E value

theorem gbWaveRamF (value : Byte) : Statement (.gbWaveRamF value) := inRow_record 0xFF3F value

end EncodesInRow

end Sys2Proof.Laws
end

