-- ==== Sys2Proof/Tests/Slice0.lean ====
section
/-! SUPPORT. Tests. The words are written out from the tables of 30_encoding.md and 20_memory.md, the expected values
are those of 95_test_vectors.md (its ids are named) or worked out by hand from the rule named; the second part shows,
for every statement with hypotheses, a state and operands that meet them. -/

namespace Sys2Proof.Machine.Tests

set_option Elab.async false

/-! ### Well-formedness: ill-formed terms are refused -/

theorem test_wf_malformedData2_two_byte_message : (Instr.midiMalformedData2 0x40 1 2).wf = false := by decide
theorem test_wf_malformedData2_system_message : (Instr.midiMalformedData2 0x78 1 2).wf = false := by decide
theorem test_wf_noteOn_velocity_zero : (Instr.noteOn 0 60 0).wf = false := by decide
theorem test_wf_ccOther_mod_wheel : (Instr.ccOther 0 1 5).wf = false := by decide
theorem test_wf_ccOther_all_notes_off : (Instr.ccOther 0 123 0).wf = false := by decide
theorem test_wf_reserved_of_a_create_word : (Instr.reserved 0x01000001).wf = false := by decide

/-! ### Decoding: words written out from R110..R123 -/

/-- R112..R119, R121. -/
theorem test_decode_midi :
    decode (.command 0b00000000_01111111_11001000_10000001) = .ok (.midiMalformedStatus 0x7F 0xC8 0x81) ∧
    decode (.command 0b00000000_10010000_11000000_01100100) = .ok (.midiMalformedData1 0x10 0x40 0x64) ∧
    decode (.command 0b00000000_11100011_00000001_10000000) = .ok (.midiMalformedData2 0x63 1 0) ∧
    decode (.command 0b00000000_10001111_00111100_01000000) = .ok (.noteOff 15 60 64) ∧
    decode (.command 0b00000000_10010000_00111100_00000000) = .ok (.noteOnV0 0 60) ∧
    decode (.command 0b00000000_10010101_01000101_01100100) = .ok (.noteOn 5 69 100) ∧
    decode (.command 0b00000000_10100001_00111100_00000111) = .ok (.polyAt 1 60 7) ∧
    decode (.command 0b00000000_10110000_00000001_01000000) = .ok (.ccModwheel 0 64) ∧
    decode (.command 0b00000000_10110000_01111011_00000000) = .ok (.ccAllNotesOff 0 0) ∧
    decode (.command 0b00000000_10110000_00000111_01100100) = .ok (.ccOther 0 7 100) ∧
    decode (.command 0b00000000_11000000_00000101_00000000) = .ok (.progChange 0 5 0) ∧
    decode (.command 0b00000000_11011010_00000110_10000001) = .ok (.chanPressure 10 6 0x81) ∧
    decode (.command 0b00000000_11100000_00000000_01100000) = .ok (.pitchBend 0 12288) ∧
    decode (.command 0b00000000_11111000_00000000_00000000) = .ok (.midiSystem 8 0 0) := by decide

/-- R110, R111. -/
theorem test_decode_host_calls :
    decode (.command 0b00000001_00000000_00000000_00000000) = .ok (.create .nes) ∧
    decode (.command 0b00000001_00000000_00000000_00000001) = .ok (.create .gb) ∧
    decode (.command 0b00000010_00000000_00000000_00000000) = .ok .destroy ∧
    decode (.command 0b00000011_00000000_00000000_10000000) = .ok (.render 128) ∧
    decode (.command 0b00000100_00010000_11111111_11111110) = .ok (.setParam 16 0xFFFE) ∧
    decode (.command 0b00000101_00000010_00000000_00000000) = .ok (.getParam 2) ∧
    decode (.command 0b00000001_00000000_00000000_00000010) = .ok (.reserved 0x01000002) ∧
    decode (.command 0b00000010_00000000_00000000_00000001) = .ok (.reserved 0x02000001) ∧
    decode (.command 0b00000011_00000001_00000000_10000000) = .ok (.reserved 0x03010080) ∧
    decode (.command 0b00000101_00000010_10000000_00000000) = .ok (.reserved 0x05028000) ∧
    decode (.command 0b00000110_00000000_00000000_00000000) = .ok (.reserved 0x06000000) := by decide

/-- R81: every register of the NES chip. -/
theorem test_decode_nes_records :
    decode (.record 0x4000B0) = .ok (.nesPulse1Ctrl 0xB0) ∧ decode (.record 0x400108) = .ok (.nesPulse1Sweep 8) ∧
    decode (.record 0x4002FD) = .ok (.nesPulse1Lo 0xFD) ∧ decode (.record 0x400308) = .ok (.nesPulse1Hi 8) ∧
    decode (.record 0x4004B0) = .ok (.nesPulse2Ctrl 0xB0) ∧ decode (.record 0x400508) = .ok (.nesPulse2Sweep 8) ∧
    decode (.record 0x4006A8) = .ok (.nesPulse2Lo 0xA8) ∧ decode (.record 0x400709) = .ok (.nesPulse2Hi 9) ∧
    decode (.record 0x4008FF) = .ok (.nesTriLinear 0xFF) ∧ decode (.record 0x400A8D) = .ok (.nesTriLo 0x8D) ∧
    decode (.record 0x400B08) = .ok (.nesTriHi 8) ∧ decode (.record 0x400C30) = .ok (.nesNoiseCtrl 0x30) ∧
    decode (.record 0x400E03) = .ok (.nesNoiseMode 3) ∧ decode (.record 0x400F08) = .ok (.nesNoiseLen 8) ∧
    decode (.record 0x40150F) = .ok (.nesStatus 0x0F) ∧ decode (.record 0x401740) = .ok (.nesFrameCounter 0x40) := by
  decide

/-- R82: every register of the Game Boy chip but the wave RAM. -/
theorem test_decode_gb_records :
    decode (.record 0xFF1015) = .ok (.gbNr10 0x15) ∧ decode (.record 0xFF1180) = .ok (.gbNr11 0x80) ∧
    decode (.record 0xFF12B0) = .ok (.gbNr12 0xB0) ∧ decode (.record 0xFF130B) = .ok (.gbNr13 0x0B) ∧
    decode (.record 0xFF1486) = .ok (.gbNr14 0x86) ∧ decode (.record 0xFF1680) = .ok (.gbNr21 0x80) ∧
    decode (.record 0xFF17B0) = .ok (.gbNr22 0xB0) ∧ decode (.record 0xFF1872) = .ok (.gbNr23 0x72) ∧
    decode (.record 0xFF1986) = .ok (.gbNr24 0x86) ∧ decode (.record 0xFF1A80) = .ok (.gbNr30 0x80) ∧
    decode (.record 0xFF1B00) = .ok (.gbNr31 0) ∧ decode (.record 0xFF1C20) = .ok (.gbNr32 0x20) ∧
    decode (.record 0xFF1D59) = .ok (.gbNr33 0x59) ∧ decode (.record 0xFF1E87) = .ok (.gbNr34 0x87) ∧
    decode (.record 0xFF2000) = .ok (.gbNr41 0) ∧ decode (.record 0xFF21F0) = .ok (.gbNr42 0xF0) ∧
    decode (.record 0xFF2213) = .ok (.gbNr43 0x13) ∧ decode (.record 0xFF2380) = .ok (.gbNr44 0x80) ∧
    decode (.record 0xFF2477) = .ok (.gbNr50 0x77) ∧ decode (.record 0xFF25FF) = .ok (.gbNr51 0xFF) ∧
    decode (.record 0xFF2680) = .ok (.gbNr52 0x80) := by decide

/-- R82: the wave RAM. -/
theorem test_decode_wave_ram :
    decode (.record 0xFF3001) = .ok (.gbWaveRam0 1) ∧ decode (.record 0xFF3123) = .ok (.gbWaveRam1 0x23) ∧
    decode (.record 0xFF3245) = .ok (.gbWaveRam2 0x45) ∧ decode (.record 0xFF3367) = .ok (.gbWaveRam3 0x67) ∧
    decode (.record 0xFF3489) = .ok (.gbWaveRam4 0x89) ∧ decode (.record 0xFF35AB) = .ok (.gbWaveRam5 0xAB) ∧
    decode (.record 0xFF36CD) = .ok (.gbWaveRam6 0xCD) ∧ decode (.record 0xFF37EF) = .ok (.gbWaveRam7 0xEF) ∧
    decode (.record 0xFF38FE) = .ok (.gbWaveRam8 0xFE) ∧ decode (.record 0xFF39DC) = .ok (.gbWaveRam9 0xDC) ∧
    decode (.record 0xFF3ABA) = .ok (.gbWaveRamA 0xBA) ∧ decode (.record 0xFF3B98) = .ok (.gbWaveRamB 0x98) ∧
    decode (.record 0xFF3C76) = .ok (.gbWaveRamC 0x76) ∧ decode (.record 0xFF3D54) = .ok (.gbWaveRamD 0x54) ∧
    decode (.record 0xFF3E32) = .ok (.gbWaveRamE 0x32) ∧ decode (.record 0xFF3F10) = .ok (.gbWaveRamF 0x10) := by
  decide

/-- R81, R82: addresses next to the register ranges and in their gaps. -/
theorem test_decode_unknown_registers :
    decode (.record 0x3FFF00) = .error (.unknownRegister 0x3FFF) ∧
    decode (.record 0x400900) = .error (.unknownRegister 0x4009) ∧
    decode (.record 0x400D00) = .error (.unknownRegister 0x400D) ∧
    decode (.record 0x401000) = .error (.unknownRegister 0x4010) ∧
    decode (.record 0x401600) = .error (.unknownRegister 0x4016) ∧
    decode (.record 0xFF1500) = .error (.unknownRegister 0xFF15) ∧
    decode (.record 0xFF1F00) = .error (.unknownRegister 0xFF1F) ∧
    decode (.record 0xFF2700) = .error (.unknownRegister 0xFF27) ∧
    decode (.record 0xFF4000) = .error (.unknownRegister 0xFF40) := by decide

/-- R110, R112, R117: words of the encoder. -/
theorem test_encode :
    encode (.noteOn 5 69 100) = .command 0x00954564 ∧ encode (.pitchBend 0 12288) = .command 0x00E00060 ∧
    encode (.setParam 16 0xFFFE) = .command 0x0410FFFE ∧ encode (.getParam 2) = .command 0x05020000 ∧
    encode (.midiMalformedData2 0x10 1 0) = .command 0x00900180 ∧ encode (.gbNr52 0x80) = .record 0xFF2680 := by
  decide

/-- The table's numbering of bits: a 24-bit row is a register-write pattern, a 32-bit row a command word. -/
theorem test_table_words :
    decodeTableWord 32 0x00904564 = some (.noteOn 0 69 100) ∧ decodeTableWord 24 0xFF2680 = some (.gbNr52 0x80) ∧
    decodeTableWord 24 0x401000 = none := by decide

/-! ### The command language (R128, R129; the table of 95_test_vectors.md §2.7) -/

theorem test_text_lines :
    parseLine "note_on 69 100 ch=5" = .command (.noteOn 69 100 5) ∧
    parseLine "note_off 60" = .command (.noteOff 60 0 0) ∧
    parseLine "note_off 60 64 ch=15   # release" = .command (.noteOff 60 64 15) ∧
    parseLine "midi 0x90 0xC0 0x64" = .command (.midi 0x90 0xC0 0x64) ∧
    parseLine "set pitch_env_depth -2" = .command (.set 16 (-2)) ∧
    parseLine "  # a comment" = .blank ∧ parseLine "note_on 60" = .malformed := by decide +kernel

theorem test_text_pseudo_commands :
    parseLine "all_notes_off" = .command (.cc 123 0 0) ∧ parseLine "mod 64" = .command (.cc 1 64 0) ∧
    parseLine "bend_center" = .command (.bend 8192 0) ∧ parseLine "note_off0 60" = .command (.noteOn 60 0 0) ∧
    parseLine "preset 3" = .command (.set 18 3) := by decide +kernel

theorem test_text_words :
    (TextCommand.noteOn 69 100 5).word = 0x00954564 ∧ (TextCommand.bend 12288 0).word = 0x00E00060 ∧
    (TextCommand.set 16 (-2)).word = 0x0410FFFE ∧ (TextCommand.midi 0x3C 0x64 0).word = 0x003C6400 := by
  decide +kernel

/-! ### States of the tests -/

/-- A fresh instance under the default parameters. -/
def fresh (c : Chip) : Instance := Instance.reset defaultConfig c

/-- The machine with an instance. -/
def on (I : Instance) : State := { State.reset with inst := some I }

/-- The instance after an instruction, where there is one. -/
def after (i : Instr) (s : State) : Option Instance :=
  match exec i s with
  | .next t => t.inst
  | _ => none

/-- Address and value of every write of the block an instruction rendered. -/
def written (i : Instr) (s : State) : List (Nat × Nat) :=
  match after i s with
  | some J => J.writes.map fun r => (r.addr.toNat, r.value.toNat)
  | none => []

/-- An active voice on a channel, its level in a stage of the default envelope. -/
def sounding (note : Nat) (c : Fin 4) (age : Nat) (trig : Bool) (stage : Stage) (level : Rat) : Voice where
  active := true
  note := note
  velocity := 100
  channel := c
  age := age
  triggered := trig
  env := { level := level, stage := stage, aRate := 1, dRate := 1 / 14700, rRate := 1 / 8820, sLevel := 2 / 3 }
  penv := 0

/-- A fresh instance with one sounding voice in slot 0 on channel 0. -/
def oneVoice (c : Chip) (trig : Bool) : Instance :=
  { (fresh c).setVoice 0 (sounding 69 0 1 trig .decay 1) with ageCounter := 1, initPending := false }

/-- A fresh instance with all four channels sounding, ages 1..4 in slots 0..3. -/
def fourVoices (c : Chip) : Instance :=
  { ((((fresh c).setVoice 0 (sounding 60 0 1 true .decay 1)).setVoice 1 (sounding 64 1 2 true .decay 1)).setVoice 2
      (sounding 67 2 3 true .decay 1)).setVoice 3 (sounding 100 3 4 true .decay 1) with ageCounter := 4 }

/-- An instance under another mode, mask and detune. -/
def withAlloc (mode : AllocMode) (mask detune : Nat) (I : Instance) : Instance :=
  { I with params := { I.params with mode := mode, mask := mask, detune := detune } }

/-! ### Single commands -/

/-- S1: the Lead note-on of A4. -/
theorem test_note_on_lead :
    (after (.noteOn 0 69 100) (on (withAlloc .lead 1 0 (fresh .nes)))).map (fun J => J.voice 0) =
      some { sounding 69 0 1 false .attack 0 with env := ((Envelope.created defaultConfig).gateOn) } := by
  decide +kernel

/-- Program 2 step 9: the oldest of four voices is stolen, its slot taken at the kept level 1. -/
theorem test_note_on_steals :
    (after (.noteOn 0 72 100) (on (fourVoices .gb))).map
      (fun J => ((J.voice 0).note, (J.voice 0).channel, (J.voice 0).age, (J.voice 0).env.level, (J.voice 4).active)) =
      some (72, 0, 5, 1, false) := by decide +kernel

/-- R240, R164: the level is kept, the stage is Release. -/
theorem test_note_off :
    (after (.noteOff 3 69 64) (on (oneVoice .nes true))).map
      (fun J => ((J.voice 0).active, (J.voice 0).env.stage, (J.voice 0).env.level)) = some (false, .release, 1) := by
  decide +kernel

/-- R363: velocity 0 with another note releases nothing. -/
theorem test_note_on_v0_other_note :
    (after (.noteOnV0 0 68) (on (oneVoice .nes true))).map (fun J => J.voice 0) =
      some (sounding 69 0 1 true .decay 1) := by decide +kernel

/-- Program 4 step 7. -/
theorem test_all_notes_off :
    (after (.ccAllNotesOff 0 0) (on (fourVoices .gb))).map
      (fun J => J.slots.map fun k => ((J.voice k).active, (J.voice k).env.stage)) =
      some [(false, .release), (false, .release), (false, .release), (false, .release), (false, .idle)] := by
  decide +kernel

/-- R233 with POOL_SIZE 2: channel 2 is free, no slot is, so the oldest voice's slot is taken and channel 1 falls
idle. -/
theorem test_note_on_small_pool :
    (after (.noteOn 0 67 90)
      { on { fresh .nes with
          voices := [sounding 60 0 2 true .decay 1, sounding 64 1 1 true .decay 1], ageCounter := 2 } with
        cfg := { defaultConfig with poolSize := 2 } }).map
      (fun J => J.slots.map fun k => ((J.voice k).note, (J.voice k).channel, (J.voice k).age)) =
      some [(60, 0, 2), (67, 2, 3)] := by decide +kernel

/-- R335 and R40 with N_CHANNELS 2: only channels 0 and 1 are silenced, and a third note finds no free channel. -/
theorem test_two_channels :
    written (.render 128)
      { on { fresh .nes with initPending := false } with cfg := { defaultConfig with nChannels := 2 } } =
      [(0x4000, 0xB0), (0x4004, 0xB0)] ∧
    (after (.noteOn 0 100 90)
      { on ((((fresh .nes).setVoice 0 (sounding 60 0 1 true .decay 1)).setVoice 1 (sounding 64 1 2 true .decay 1))) with
        cfg := { defaultConfig with nChannels := 2 } }).map (fun J => ((J.voice 0).note, (J.voice 0).channel)) =
      some (100, 0) := by decide +kernel

/-- H22 and program 3 step 8: the bends of 0, 8192 and 12288. -/
theorem test_pitch_bend :
    (after (.pitchBend 0 0) (on (fresh .nes))).map Instance.bend = some (-2) ∧
    (after (.pitchBend 0 8192) (on (fresh .nes))).map Instance.bend = some 0 ∧
    (after (.pitchBend 0 12288) (on (fresh .nes))).map Instance.bend = some 1 := by decide +kernel

/-- H20, H21: the mod wheel under both modes. -/
theorem test_mod_wheel :
    (after (.ccModwheel 0 64) (on (fresh .nes))).map (fun J => J.params.vibDepth) = some 0 ∧
    (after (.ccModwheel 0 64)
      { on (fresh .nes) with cfg := { defaultConfig with modWheel := .setVibratoDepth } }).map
      (fun J => J.params.vibDepth) = some 50 := by decide +kernel

/-- H1, H3, H4, H5. -/
theorem test_set_param_clamps :
    (after (.setParam 2 20) (on (fresh .nes))).map (fun J => J.params.attack) = some 15 ∧
    (after (.setParam 14 0xFFFB) (on (fresh .nes))).map (fun J => J.params.octave) = some (-3) ∧
    (after (.setParam 11 255) (on (fresh .nes))).map (fun J => J.params.mask) = some 15 ∧
    (after (.setParam 10 7) (on (fresh .nes))).map (fun J => J.params.wavetable) = some 0 := by decide +kernel

/-- H6, H7, H8, H10, H12. -/
theorem test_set_chip_preset_unknown :
    (after (.setParam 18 9) (on (fresh .nes))).map (fun J => (J.presetId, J.params)) = some (0, defaultParams) ∧
    (after (.setParam 18 0xFFFF) (on (fresh .nes))).map (fun J => (J.presetId, J.params)) = some (0, defaultParams) ∧
    (after (.setParam 19 5) (on (fresh .nes))).map (fun J => (J.chip, J.params)) = some (.nes, defaultParams) ∧
    (after (.setParam 0 5) (on (oneVoice .nes true))).map
      (fun J => (J.chip, J.initPending, J.anyActive)) = some (.gb, true, false) := by decide +kernel

/-- H2, H9, H16. -/
theorem test_get_param :
    exec (.getParam 13) (on (fresh .nes)) = .next { on (fresh .nes) with ret := .param (some 15) } ∧
    exec (.getParam 32) (on (fresh .nes)) = .next { on (fresh .nes) with ret := .param none } ∧
    exec (.getParam 2) State.reset = .next { State.reset with ret := .param none } := ⟨rfl, rfl, rfl⟩

/-- H13, H17. -/
theorem test_create :
    exec (.create .gb) (on (fresh .nes)) = .refused .alreadyCreated ∧
    exec (.create .nes) { State.reset with allocOk := false } =
      .next { State.reset with allocOk := false, ret := .createFailed } := ⟨rfl, rfl⟩

/-- H15, H18. -/
theorem test_render_frame_counts :
    exec (.render 64) State.reset = .next { State.reset with out := List.replicate 128 0 } ∧
    exec (.render 64) (on (fresh .nes)) = .refused .frameCount := ⟨rfl, rfl⟩

/-- RB2 and RB3: the first block of a fresh instance. -/
theorem test_render_fresh :
    written (.render 128) (on (fresh .nes)) =
      [(0x4015, 0x0F), (0x4017, 0x40), (0x4000, 0xB0), (0x4004, 0xB0), (0x4008, 0), (0x400C, 0x30)] ∧
    written (.render 128) (on (fresh .gb)) =
      [(0xFF26, 0x80), (0xFF24, 0x77), (0xFF25, 0xFF), (0xFF12, 0), (0xFF17, 0), (0xFF1A, 0), (0xFF21, 0)] := by
  decide +kernel

/-- Program 1 render 8, from its level 963/980: the trigger block of note 72. -/
theorem test_render_nes_trigger :
    written (.render 128)
      (on (withAlloc .lead 1 0
        { (fresh .nes).setVoice 0 (sounding 72 0 2 false .attack (963 / 980)) with initPending := false })) =
      [(0x4000, 0xBB), (0x4001, 0x08), (0x4002, 0xD5), (0x4003, 0x08), (0x4004, 0xB0), (0x4008, 0), (0x400C, 0x30)] := by
  decide +kernel

/-- Program 2 render 10's later blocks: channels 0..3 at level 1 and velocity 100 (G2, G7, G10's note). -/
theorem test_render_gb_later :
    written (.render 128) (on { fourVoices .gb with initPending := false }) =
      [(0xFF12, 0xB0), (0xFF13, 0x0B), (0xFF17, 0xB0), (0xFF18, 0x72), (0xFF1C, 0x20), (0xFF1D, 0x59),
       (0xFF21, 0xB0), (0xFF22, 0x13)] := by decide +kernel

/-- R111. -/
theorem test_reserved : step (State.reset.withFetchWord 32 0x06000000) = .refused .reservedCommand := rfl

/-- R360: a note-on delivered to the null state is taken and has no effect. -/
theorem test_step_takes_delivery : step (State.reset.withFetchWord 32 0x00904564) = .next State.reset := rfl

/-- R123, R338: a record delivered by itself goes to the end of the list, at that time. -/
theorem test_record :
    (after (.nesPulse1Lo 0xFD) (on { fresh .nes with writes := [⟨0, 0x4015, 0x0F⟩] })).map
      (fun J => (J.writes, J.core.enqueued)) =
      some ([⟨0, 0x4015, 0x0F⟩, ⟨1, 0x4002, 0xFD⟩], [⟨1, 0x4002, 0xFD⟩]) := by decide +kernel

/-- R93 and R440: a register reads as last written, an unwritten one as the core left it, another address as nothing. -/
theorem test_registers :
    let m := Memory.apply Memory.created [⟨0, 0x4015, 0x0F⟩, ⟨1, 0x4017, 0x40⟩]
    Memory.read? m 0x4015 = some 0x0F ∧ Memory.read? m 0x4003 = some (Config.coreRegister 0x4003) ∧
    Memory.read? m 0x4009 = none := ⟨rfl, rfl, rfl⟩

/-! ### Numbers -/

/-- P1: periods and frequencies of notes 21, 60 and 127. -/
theorem test_periods :
    ([21, 60, 127].map fun n =>
      let f := noteFreq defaultConfig n
      (pulsePeriod defaultConfig f, triPeriod defaultConfig f, sqFreq defaultConfig f, waveFreq defaultConfig f)) =
      [(2047, 2033, 0, 0), (427, 213, 1547, 1798), (8, 3, 2038, 2043)] := by decide +kernel

/-- The table of QVOL in §2.6, and the budgets RB1. -/
theorem test_qvol_budget :
    qvol (2 / 3) 8 64 = 2 ∧ qvol (1 / 15) 15 127 = 1 ∧ qvol (14 / 225) 15 127 = 0 ∧ qvol (14573 / 14700) 15 127 = 14 ∧
    budget defaultConfig .nes = 5195 ∧ budget defaultConfig .gb = 12174 := by decide +kernel

/-- G11. -/
theorem test_gb_noise_byte :
    gbNoiseByte defaultConfig defaultParams 60 = 0x63 ∧
    gbNoiseByte defaultConfig { defaultParams with noiseMode := 1 } 100 = 0x1B ∧
    gbNoiseByte defaultConfig defaultParams 0 = 0xD7 ∧ gbNoiseByte defaultConfig defaultParams 127 = 0 := by
  decide +kernel

/-- S3: two steps of the zero-time envelope. -/
theorem test_envelope_zero_times :
    ((Envelope.configure defaultConfig { defaultParams with attack := 0, decay := 0, sustain := 0, release := 0 }
      (Envelope.created defaultConfig)).gateOn.advance 2) =
      { level := 0, stage := .idle, aRate := 1, dRate := 1, rRate := 1, sLevel := 0 } := by decide +kernel

/-! ### Witnesses: states and operands that meet the hypotheses of the statements -/

/-- Slot 0 sounds on channel 0, already triggered; slot 1 on channel 1, not yet triggered; slot 2 on channel 2 ends in
this block; slots 3 and 4 are inactive. The high period register of channel 0 has been written. -/
def playing (c : Chip) : Instance :=
  { (((fresh c).setVoice 0 (sounding 60 0 1 true .decay 1)).setVoice 1 (sounding 64 1 2 false .attack 0)).setVoice 2
      (sounding 67 2 3 true .release (1 / 8820)) with
    ageCounter := 3
    core := { (fresh c).core with
      regs := match c with
        | .nes => Memory.write Memory.created 0x4003 0x09
        | .gb => Memory.write Memory.created 0xFF14 0x86 } }

theorem witness_default_config : defaultConfig.wf := by decide +kernel

theorem witness_default_params : ParamsOk defaultConfig defaultParams := by constructor <;> decide +kernel

theorem witness_created_envelope : EnvelopeOk (Envelope.created defaultConfig) := by constructor <;> decide +kernel

/-- What holds of every active voice need only be seen at the slots there are. -/
theorem of_slots {I : Instance} {Q : Nat → Prop} (h : ∀ k < I.voices.length, (I.voice k).active = true → Q k) :
    ∀ k, (I.voice k).active = true → Q k := fun k ha => h k (active_lt ha) ha

theorem of_active_pairs {I : Instance} {Q : Nat → Nat → Prop}
    (h : ∀ s < I.voices.length, ∀ t < I.voices.length, (I.voice s).active = true → (I.voice t).active = true → Q s t) :
    ∀ s t, (I.voice s).active = true → (I.voice t).active = true → Q s t :=
  fun s t hs ht => h s (active_lt hs) t (active_lt ht) hs ht

theorem witness_playing_voices (c : Chip) (k : Nat) : VoiceOk 3 ((playing c).voice k) := by
  by_cases hk : k < 5
  · have h : EnvelopeOk ((playing c).voice k).env := by
      cases c <;> interval_cases k <;> constructor <;> decide +kernel
    cases c <;> interval_cases k <;> refine ⟨?_, ?_, h, ?_, ?_, ?_, ?_, ?_⟩ <;> decide +kernel
  · rw [voice_of_le (by cases c <;> exact not_lt.1 hk)]
    exact VoiceOk.absent 3

theorem witness_playing (c : Chip) : InstanceOk defaultConfig (playing c) where
  params := witness_default_params
  presetId := by cases c <;> decide +kernel
  pool := by cases c <;> decide +kernel
  voices := witness_playing_voices c
  channelBelow := of_slots (by cases c <;> decide +kernel)
  channels := of_active_pairs (by cases c <;> decide +kernel)
  ages := of_active_pairs (by cases c <;> decide +kernel)
  lfoLow := by cases c <;> decide +kernel
  lfoHigh := by cases c <;> decide +kernel
  bendLow := by cases c <;> decide +kernel
  bendHigh := by cases c <;> decide +kernel
  writeTimes := by cases c <;> decide +kernel
  writesMapped := by cases c <;> decide +kernel
  enqueuedMapped := by cases c <;> decide +kernel
  regsForm := by cases c <;> decide +kernel
  regsMapped := by cases c <;> decide +kernel
  regsAll := by cases c <;> decide +kernel

/-- A state with three active voices meets the invariant, on both chips. -/
theorem witness_Inv (c : Chip) : (on (playing c)).Inv where
  config := witness_default_config
  inst := by
    intro I h
    cases h
    exact witness_playing c

theorem witness_CreateOutcomes :
    (on (fresh .nes)).inst = some (fresh .nes) ∧
    ({ State.reset with allocOk := false } : State).inst = none ∧
    State.reset.inst = none ∧ State.reset.allocOk = true := ⟨rfl, rfl, rfl, rfl⟩

theorem witness_CreatedInstance : defaultConfig.sr = 44100 ∧ defaultConfig.drDiv = 15 := ⟨rfl, rfl⟩

theorem witness_NullInstanceCommands :
    State.reset.inst = none ∧ (∀ c, Instr.getParam 2 ≠ .create c) ∧ (∀ f, Instr.getParam 2 ≠ .render f) ∧
    (∀ w, Instr.getParam 2 ≠ .reserved w) ∧ (∀ c, Instr.destroy ≠ .create c) ∧ (∀ f, Instr.destroy ≠ .render f) ∧
    (∀ w, Instr.destroy ≠ .reserved w) ∧ ∀ id, Instr.destroy ≠ .getParam id := by
  refine ⟨rfl, ?_, ?_, ?_, ?_, ?_, ?_, ?_⟩ <;> intros <;> exact Instr.noConfusion

theorem witness_NullInstanceRender : State.reset.inst = none := rfl

theorem witness_RenderRefusesOtherFrameCounts :
    ∃ (s : State) (I : Instance), s.inst = some I ∧ (127#16).toNat ≠ s.cfg.fpb ∧ (129#16).toNat ≠ s.cfg.fpb ∧
      (0#16).toNat ≠ s.cfg.fpb := ⟨on (fresh .nes), fresh .nes, rfl, by decide, by decide, by decide⟩

/-- One word of each case of R111, each with the least and the highest bit that may not be set. -/
theorem witness_ReservedWordsRefused :
    ([0x06000000, 0xFF000000, 0x01000002, 0x01800000, 0x02000001, 0x02800000, 0x03010000, 0x03800000, 0x05000001,
      0x05008000] : List Word).all (fun w => decide (decode (.command w) = .ok (.reserved w))) = true := by decide

theorem witness_StepRunsDecodedInstruction :
    ∃ (s : State) (d : Delivery) (rest : List Delivery) (i : Instr), s.inbox = d :: rest ∧ decode d.packet = .ok i :=
  ⟨State.reset.withFetchWord 32 0x00904564, ⟨.command 0x00904564, true⟩, [], .noteOn 0 69 100, rfl, by decide⟩

/-- Both clauses, and record addresses on both sides of the edges of the register ranges. -/
theorem witness_StepWithoutInstruction :
    State.reset.inbox = [] ∧
    ([0x3FFF, 0x4009, 0x400D, 0x4010, 0x4014, 0x4016, 0x4018, 0xFF0F, 0xFF15, 0xFF1F, 0xFF27, 0xFF2F, 0xFF40, 0x0000,
        0xFFFF] : List Addr).all
      (fun a => decide (decode (.record (a ++ (0 : Byte))) = .error (.unknownRegister a))) = true ∧
    ([0x4000, 0x400F, 0x4015, 0x4017, 0xFF10, 0xFF26, 0xFF30, 0xFF3F] : List Addr).all
      (fun a => mappedRegister a.toNat) = true := by decide

theorem witness_DecodeAfterEncode :
    (Instr.midiMalformedData2 0x6F 127 127).wf = true ∧ (Instr.noteOn 15 127 1).wf = true ∧
    (Instr.ccOther 0 122 0).wf = true ∧ (Instr.reserved 0x06000000).wf = true ∧ (Instr.gbWaveRamF 0).wf = true := by
  decide

theorem witness_EncodeAfterDecode :
    decode (.command 0x00E3007F) = .ok (.pitchBend 3 16256) ∧ decode (.record 0x4017FF) = .ok (.nesFrameCounter 0xFF) := by
  decide

/-- Parts that meet the hypotheses together, an accepted line, and each command of the language with its operands at the
ends of their fields. -/
theorem witness_TextCommandsDecode :
    natPart "60" = some 60 ∧ natPart "0x7F" = some 127 ∧ intPart "0x7F" = some 127 ∧ channelPart "ch=5" = some 5 ∧
    keyId "octave" = some 14 ∧ natPart "0" = some 0 ∧ parseLine "destroy" = .command .destroy ∧
    ∀ t ∈ [TextCommand.create .gb, .destroy, .render 65535, .set 255 (-32769), .get 255, .noteOn 127 0 15,
        .noteOn 127 127 15, .noteOff 127 127 15, .cc 1 127 15, .cc 123 0 0, .cc 127 127 15, .bend 16383 15,
        .midi 255 255 255],
      t.fits = true := by decide +kernel

theorem witness_InvariantKeptByStep :
    ∃ s t : State, s.Inv ∧ step s = .next t :=
  ⟨on (playing .gb), on (playing .gb), witness_Inv .gb, rfl⟩

theorem witness_EnvelopeStaysInRange :
    ∃ (cfg : Config) (e : Envelope) (ops : List EnvelopeOp), cfg.wf ∧ EnvelopeOk e ∧ ops.length = 5 ∧
      ∀ P, EnvelopeOp.configure P ∈ ops → ParamsOk cfg P :=
  ⟨defaultConfig, Envelope.created defaultConfig,
    [.configure defaultParams, .gateOn, .step, .gateOff, .advance 3], witness_default_config, witness_created_envelope,
    rfl, by
      intro P h
      have h : P = defaultParams := by simpa using h
      exact h ▸ witness_default_params⟩

/-- An envelope for each clause, at the boundary of the comparison. -/
theorem witness_EnvelopeStageSteps :
    (∃ e : Envelope, e.stage = .attack ∧ e.level + e.aRate < 1) ∧
    (∃ e : Envelope, e.stage = .attack ∧ 1 ≤ e.level + e.aRate) ∧
    (∃ e : Envelope, e.stage = .decay ∧ e.sLevel < e.level - e.dRate) ∧
    (∃ e : Envelope, e.stage = .decay ∧ e.level - e.dRate ≤ e.sLevel ∧ 0 < e.sLevel) ∧
    (∃ e : Envelope, e.stage = .decay ∧ e.level - e.dRate ≤ e.sLevel ∧ e.sLevel ≤ 0) ∧
    (∃ e : Envelope, e.stage = .sustain) ∧
    (∃ e : Envelope, e.stage = .release ∧ 0 < e.level - e.rRate) ∧
    (∃ e : Envelope, e.stage = .release ∧ e.level - e.rRate ≤ 0) ∧
    ∃ e : Envelope, e.stage = .idle :=
  ⟨⟨⟨1 / 4, .attack, 1 / 2, 1 / 2, 1 / 2, 1 / 2⟩, rfl, by decide +kernel⟩,
   ⟨⟨1 / 2, .attack, 1 / 2, 1 / 2, 1 / 2, 1 / 2⟩, rfl, by decide +kernel⟩,
   ⟨⟨1, .decay, 1 / 2, 1 / 4, 1 / 2, 1 / 2⟩, rfl, by decide +kernel⟩,
   ⟨⟨1, .decay, 1 / 2, 1 / 2, 1 / 2, 1 / 2⟩, rfl, by decide +kernel, by decide +kernel⟩,
   ⟨⟨1 / 2, .decay, 1 / 2, 1 / 2, 1 / 2, 0⟩, rfl, by decide +kernel, by decide +kernel⟩,
   ⟨⟨1 / 2, .sustain, 1 / 2, 1 / 2, 1 / 2, 1 / 2⟩, rfl⟩,
   ⟨⟨1, .release, 1 / 2, 1 / 2, 1 / 2, 1 / 2⟩, rfl, by decide +kernel⟩,
   ⟨⟨1 / 2, .release, 1 / 2, 1 / 2, 1 / 2, 1 / 2⟩, rfl, by decide +kernel⟩,
   ⟨⟨0, .idle, 1 / 2, 1 / 2, 1 / 2, 1 / 2⟩, rfl⟩⟩

theorem witness_EnvelopeConfigureAndGates :
    (Envelope.created defaultConfig).stage = .idle ∧ (Envelope.created defaultConfig).gateOn.stage ≠ .idle := by
  decide +kernel

/-- The parameters at both ends of their ranges, and the release from levels 0, a fraction and 1. -/
theorem witness_StageDurations :
    defaultConfig.sr = 44100 ∧ defaultConfig.attackDiv = 60 ∧ defaultConfig.drDiv = 15 ∧
    ParamsOk defaultConfig { defaultParams with attack := 0, decay := 0, sustain := 15, release := 0 } ∧
    ParamsOk defaultConfig { defaultParams with attack := 15, decay := 15, sustain := 0, release := 15 } ∧
    (0 : Rat) ≤ 0 ∧ (0 : Rat) ≤ 501 / 1000 ∧ (501 / 1000 : Rat) ≤ 1 ∧ (1 : Rat) ≤ 1 := by
  refine ⟨rfl, rfl, rfl, ?_, ?_, ?_⟩
  · constructor <;> decide +kernel
  · constructor <;> decide +kernel
  · decide +kernel

theorem witness_on (I : Instance) : (on I).inst = some I := rfl

theorem witness_NoteOnFrame : ∃ (s : State) (I : Instance), s.inst = some I := ⟨on (playing .nes), playing .nes, rfl⟩

/-- Lead mode with channel 2 the lowest enabled, and with an empty mask. -/
theorem witness_NoteOnLead :
    (∃ (s : State) (I : Instance), s.inst = some I ∧ I.params.mode = .lead ∧ 0 < I.voices.length ∧
      maskBit s.cfg I.params 2 ∧ ∀ d < (2 : Fin 4), ¬maskBit s.cfg I.params d) ∧
    ∃ (s : State) (I : Instance), s.inst = some I ∧ I.params.mode = .lead ∧ 0 < I.voices.length ∧
      ∀ c, ¬maskBit s.cfg I.params c := by
  unfold maskBit
  refine ⟨⟨on (withAlloc .lead 12 0 (playing .nes)), withAlloc .lead 12 0 (playing .nes), rfl, rfl, ?_, ?_, ?_⟩,
    ⟨on (withAlloc .lead 0 0 (playing .nes)), withAlloc .lead 0 0 (playing .nes), rfl, rfl, ?_, ?_⟩⟩ <;> decide +kernel

/-- Five active voices, none on channel 0 (no run reaches that: two of them share a channel). -/
def crowded : Instance :=
  { fourVoices .nes with
    voices := [sounding 60 1 1 true .decay 1, sounding 62 2 2 true .decay 1, sounding 64 2 3 true .decay 1,
      sounding 65 3 4 true .decay 1, sounding 67 3 5 true .decay 1]
    ageCounter := 5 }

/-- The hypotheses of NoteOnTakesFreeChannel for the channel c and the slot k. -/
abbrev takesFree (I : Instance) (n : BitVec 7) (c : Fin 4) (k : Nat) : Prop :=
  I.params.mode ≠ .lead ∧ ChannelFree defaultConfig I c ∧
  (I.params.mode = .auto ∧ defaultConfig.highNote < transposed I.params n ∧ ChannelFree defaultConfig I 3 → c = 3) ∧
  (¬(I.params.mode = .auto ∧ defaultConfig.highNote < transposed I.params n ∧ ChannelFree defaultConfig I 3) →
    ∀ d < c, ¬ChannelFree defaultConfig I d) ∧
  NoDouble defaultConfig I.params c ∧ k < I.voices.length ∧
  (((I.voice k).active = false ∧ ∀ j < k, (I.voice j).active = true) ∨
    ∀ j < I.voices.length, (I.voice j).active = true ∧ (j ≠ k → (I.voice k).age < (I.voice j).age))

/-- Auto mode, notes 97 and 96 on either side of HIGH_NOTE, Locked mode with channel 0 off and another one free, and a
pool with no inactive slot, whose slot 0 holds the oldest voice. -/
theorem witness_NoteOnTakesFreeChannel :
    takesFree (oneVoice .nes true) 97 3 1 ∧ takesFree (oneVoice .nes true) 96 1 1 ∧
    takesFree (withAlloc .locked 12 0 (oneVoice .nes true)) 127 2 1 ∧ takesFree crowded 60 0 0 := by
  unfold takesFree NoDouble
  simp only [← free_iff_channelFree]
  unfold maskBit
  refine ⟨⟨?_, ?_, ?_, ?_, ?_, ?_, ?_⟩, ⟨?_, ?_, ?_, ?_, ?_, ?_, ?_⟩, ⟨?_, ?_, ?_, ?_, ?_, ?_, ?_⟩,
    ⟨?_, ?_, ?_, ?_, ?_, ?_, ?_⟩⟩ <;> decide +kernel

/-- The hypotheses of NoteOnStealsOldest for the voice w and the slot k. -/
abbrev stealsOldest (I : Instance) (w k : Nat) : Prop :=
  I.params.mode ≠ .lead ∧ (∃ c, maskBit defaultConfig I.params c) ∧ (∀ c, ¬ChannelFree defaultConfig I c) ∧
  (I.voice w).active = true ∧ (I.params.mode = .locked → maskBit defaultConfig I.params (I.voice w).channel) ∧
  (∀ j, j ≠ w → (I.voice j).active = true →
    (I.params.mode = .locked → maskBit defaultConfig I.params (I.voice j).channel) →
    (I.voice w).age < (I.voice j).age) ∧
  NoDouble defaultConfig I.params (I.voice w).channel ∧ k < I.voices.length ∧ (k = w ∨ (I.voice k).active = false) ∧
  ∀ j < k, j ≠ w ∧ (I.voice j).active = true

/-- Auto mode: the oldest of four voices, its slot the least inactive one; Locked mode with channels 1 and 2 enabled:
the oldest among the voices on them, in slot 1, and with slot 0 inactive the new voice goes there. -/
theorem witness_NoteOnStealsOldest :
    stealsOldest (fourVoices .gb) 0 0 ∧ stealsOldest (withAlloc .locked 6 0 (fourVoices .gb)) 1 1 ∧
    stealsOldest (withAlloc .locked 6 0 ((fourVoices .gb).setVoice 0 (Voice.created defaultConfig))) 1 0 := by
  unfold stealsOldest NoDouble
  simp only [← free_iff_channelFree]
  unfold maskBit
  refine ⟨⟨?_, ?_, ?_, ?_, ?_, ?_, ?_, ?_, ?_, ?_⟩, ⟨?_, ?_, ?_, ?_, ?_, ?_, ?_, ?_, ?_, ?_⟩,
    ⟨?_, ?_, ?_, ?_, ?_, ?_, ?_, ?_, ?_, ?_⟩⟩ <;>
  first
  | decide +kernel
  | intro j hj ha
    have hl := active_lt ha
    revert ha hj
    revert hl
    revert j
    decide +kernel

/-- The hypotheses of NoteOnMakesDouble for the instance I, the slot k of the main voice and what the same note-on
without detune leaves. -/
abbrev makesDouble (I : Instance) (k : Nat) (K : Instance) : Prop :=
  I.params.mode ≠ .lead ∧ 0 < I.params.detune ∧ maskBit defaultConfig I.params 0 ∧ maskBit defaultConfig I.params 1 ∧
  exec (.noteOn 0 60 100) { on I with inst := some { I with params := { I.params with detune := 0 } } } =
    .next { on I with inst := some K } ∧
  (K.voice k).age = I.ageCounter + 1 ∧ (K.voice k).active = true ∧ (K.voice k).channel = 0 ∧
  K.ageCounter = I.ageCounter + 1 ∧ ∀ j, (I.voice j).active = true → (I.voice j).age ≤ I.ageCounter

/-- S2, with slot 1 for the double; and a pool with no inactive slot left. -/
theorem witness_NoteOnMakesDouble :
    (∃ K, makesDouble (withAlloc .auto 3 10 (fresh .nes)) 0 K ∧ 1 < K.voices.length ∧ (K.voice 1).active = false ∧
      ∀ j < 1, (K.voice j).active = true) ∧
    ∃ K, makesDouble (withAlloc .auto 3 10 crowded) 0 K ∧ ∀ d < K.voices.length, (K.voice d).active = true := by
  unfold makesDouble maskBit
  refine ⟨⟨_, ⟨?_, ?_, ?_, ?_, rfl, ?_, ?_, ?_, ?_, of_slots ?_⟩, ?_, ?_, ?_⟩,
    ⟨_, ⟨?_, ?_, ?_, ?_, rfl, ?_, ?_, ?_, ?_, of_slots ?_⟩, ?_⟩⟩ <;> decide +kernel

theorem witness_NoteOnEmptyMask :
    ∃ (s : State) (I : Instance), s.inst = some I ∧ I.params.mode ≠ .lead ∧ ∀ c, ¬maskBit s.cfg I.params c := by
  refine ⟨on (withAlloc .locked 0 0 (playing .nes)), withAlloc .locked 0 0 (playing .nes), rfl, ?_, ?_⟩
  · decide
  · unfold maskBit
    decide

theorem witness_AllocationLimits :
    ∃ (s t : State) (I J : Instance), s.Inv ∧ s.inst = some I ∧ s.cfg.nChannels < s.cfg.poolSize ∧
      exec (.noteOn 0 60 100) s = .next t ∧ t.inst = some J :=
  ⟨on (playing .nes), _, playing .nes, _, witness_Inv .nes, rfl, by decide, rfl, rfl⟩

theorem witness_ModWheelEffect :
    (on (fresh .nes)).cfg.modWheel = .ignore ∧
    ({ on (fresh .nes) with cfg := { defaultConfig with modWheel := .setVibratoDepth } } : State).cfg.modWheel =
      .setVibratoDepth := ⟨rfl, rfl⟩

theorem witness_PitchBendSetsBend :
    (8192#14).toNat = 8192 ∧ (0#14).toNat = 0 ∧ 0 < (on (fresh .nes)).cfg.bendRange := by decide

/-- A write back of a field's own value (octave -3), and the least unknown id. -/
theorem witness_SetParamClampsOneField :
    (on (fresh .nes)).inst = some (fresh .nes) ∧ 0 < (on (fresh .nes)).cfg.wavetables.length ∧
    (14, -3, 3) ∈ rangeTable defaultConfig ∧ ParamsOk defaultConfig (fresh .nes).params ∧
    (15#16).toInt = paramField (fresh .nes).params 13 ∧ 18 < (19#8).toNat ∧ 18 < (255#8).toNat :=
  ⟨rfl, by decide, by decide, witness_default_params, by decide, by decide, by decide⟩

/-- Both chips, with the values next to the clamp's edge. -/
theorem witness_SetChipEffect :
    (fresh .nes).chip = (if (0#16).toInt ≤ 0 then .nes else .gb) ∧
    (fresh .nes).chip ≠ (if (1#16).toInt ≤ 0 then .nes else .gb) ∧
    (fresh .gb).chip = (if (0x7FFF#16).toInt ≤ 0 then .nes else .gb) ∧
    (fresh .gb).chip ≠ (if (0x8000#16).toInt ≤ 0 then .nes else .gb) := by decide

/-- Preset ids at both ends of the table and next to them. -/
theorem witness_SetPresetEffect :
    (0xFFFF#16).toInt < 0 ∧ (defaultConfig.presets.length : Int) ≤ (8#16).toInt ∧ 0 ≤ (0#16).toInt ∧
    defaultConfig.presets[(0#16).toInt.toNat]? = some defaultParams ∧
    defaultConfig.presets[(7#16).toInt.toNat]? = some defaultParams ∧ 0 < defaultConfig.wavetables.length := by
  decide +kernel

theorem witness_GetParamReturnsField : (on (playing .gb)).inst = some (playing .gb) ∧ 18 < (19#8).toNat :=
  ⟨rfl, by decide⟩

theorem witness_SnapshotRoundTrip :
    ∃ (s : State) (I : Instance), s.Inv ∧ s.inst = some I ∧ s.cfg.wavetables.length ≤ 32768 ∧
      s.cfg.presets.length ≤ 32768 :=
  ⟨on (playing .gb), playing .gb, witness_Inv .gb, rfl, by decide, by decide⟩

/-- The instance made and discarded, and a change of chip, of a field, of the bend, of the age counter, of a voice's
active flag, stage and level. -/
theorem witness_OnlyTheseInstructionsWrite :
    (after (.create .nes) State.reset).isSome = true ∧ (after .destroy (on (playing .nes))).isNone = true ∧
    (after (.noteOff 0 60 0) (on (playing .nes))).map
      (fun J => ((J.voice 0).active, (J.voice 0).env.stage)) = some (false, .release) ∧
    (after (.render 128) (on (playing .nes))).map
      (fun J => (J.voice 1).env.level == ((playing .nes).voice 1).env.level) = some false ∧
    (after (.setParam 0 1) (on (playing .nes))).map Instance.chip = some .gb ∧
    (after (.setParam 1 0) (on (playing .nes))).map (fun J => J.params.duty) = some 0 ∧
    (after (.pitchBend 0 0) (on (playing .nes))).map Instance.bend = some (-2) ∧
    (after (.noteOn 0 60 1) (on (playing .nes))).map Instance.ageCounter = some 4 := by decide +kernel

theorem witness_VoiceKeepsItsAllocation :
    ∃ (s t : State) (I J : Instance), exec (.noteOn 0 60 1) s = .next t ∧ s.inst = some I ∧ t.inst = some J :=
  ⟨on (playing .nes), _, playing .nes, _, rfl, rfl, rfl⟩

/-- A surviving triggered voice, a surviving voice not yet triggered, one that ends and an inactive slot. -/
theorem witness_render_slots (c : Chip) :
    Survives defaultConfig (playing c) 0 ∧ ((playing c).voice 0).triggered = true ∧
    Survives defaultConfig (playing c) 1 ∧ ((playing c).voice 1).triggered = false ∧
    ((playing c).voice 2).active = true ∧ ¬Survives defaultConfig (playing c) 2 ∧
    ((playing c).voice 3).active = false := by
  unfold Survives
  cases c <;> decide +kernel

/-- RenderUpdatesInstance, RenderWriteOrder, OutputSamples and RenderAppliesEveryWrite. -/
theorem witness_render_hypotheses (c : Chip) :
    (on (playing c)).inst = some (playing c) ∧ (128#16).toNat = (on (playing c)).cfg.fpb ∧
    Survives (on (playing c)).cfg (playing c) 0 := ⟨rfl, rfl, (witness_render_slots c).1⟩

/-- WriteTimesAndBound and RenderWritesInForm. -/
theorem witness_render_completes (c : Chip) :
    ∃ (s t : State) (I J : Instance), s.Inv ∧ s.inst = some I ∧ exec (.render 128) s = .next t ∧ t.inst = some J ∧
      s.cfg.writeStep = 1 ∧ s.cfg.fpb = 128 ∧ s.cfg.sr = 44100 ∧ s.cfg.nesClock = 1789773 ∧ s.cfg.gbClock = 4194304 :=
  ⟨on (playing c), _, playing c, _, witness_Inv c, rfl, rfl, rfl, rfl, rfl, rfl, rfl, rfl⟩

/-- Channel 1 is triggered in the block, channels 0 and 3 are not. -/
theorem witness_TriggerWrittenOnce (c : Chip) :
    (∃ k, Survives defaultConfig (playing c) k ∧ ((playing c).voice k).channel = 1 ∧
      ((playing c).voice k).triggered = false) ∧
    (¬∃ k, Survives defaultConfig (playing c) k ∧ ((playing c).voice k).channel = 0 ∧
      ((playing c).voice k).triggered = false) ∧
    ¬∃ k, Survives defaultConfig (playing c) k ∧ ((playing c).voice k).channel = 3 ∧
      ((playing c).voice k).triggered = false := by
  have h : ∀ k, ((playing c).voice k).active = true →
      ((playing c).voice k).channel ≠ 3 ∧ (((playing c).voice k).channel = 0 → ((playing c).voice k).triggered = true) :=
    of_slots (by cases c <;> decide +kernel)
  refine ⟨⟨1, (witness_render_slots c).2.2.1, ?_, (witness_render_slots c).2.2.2.1⟩, ?_, ?_⟩
  · cases c <;> decide +kernel
  · rintro ⟨k, hk, hc, ht⟩
    simp [(h k hk.1).2 hc] at ht
  · rintro ⟨k, hk, hc, ht⟩
    exact (h k hk.1).1 hc

theorem witness_SilentWithoutVoices :
    (on (fresh .gb)).inst = some (fresh .gb) ∧ (128#16).toNat = (on (fresh .gb)).cfg.fpb ∧
    (∀ k, ¬Survives (on (fresh .gb)).cfg (fresh .gb) k) ∧ (on (fresh .gb)).cfg.nChannels ≤ 4 ∧
    (3 : Fin 4).val < (on (fresh .gb)).cfg.nChannels ∧
    ((0xFF21 : Addr), (0x00 : Byte)) ∈ silenceWrites (fresh .gb).chip (fresh .gb).params 3 := by
  refine ⟨rfl, rfl, fun k hk => of_slots (I := fresh .gb) (Q := fun _ => False) ?_ k hk.1, ?_, ?_, ?_⟩ <;> decide +kernel

/-- Both clauses, on both chips: the register pair of channels 0 and 1, the high byte of channel 0 written before. -/
theorem witness_StaleHighBits :
    periodRegisters (playing .nes).chip ((playing .nes).voice 0).channel = some (0x4002, 0x4003) ∧
    Memory.read? (Memory.apply (playing .nes).core.regs (playing .nes).core.enqueued) (0x4003 : Addr).toNat = some 0x09 ∧
    periodRegisters (playing .nes).chip ((playing .nes).voice 1).channel = some (0x4006, 0x4007) ∧
    periodRegisters (playing .gb).chip ((playing .gb).voice 0).channel = some (0xFF13, 0xFF14) ∧
    Memory.read? (Memory.apply (playing .gb).core.regs (playing .gb).core.enqueued) (0xFF14 : Addr).toNat =
      some 0x86 ∧
    periodRegisters (playing .gb).chip ((playing .gb).voice 1).channel = some (0xFF18, 0xFF19) := by decide +kernel

theorem witness_QuantizedVolume :
    (0 : Rat) ≤ 0 ∧ (0 : Rat) ≤ 1 ∧ (1 : Rat) ≤ 1 ∧ (15 : Nat) ≤ 15 ∧ (127 : Nat) ≤ 127 := by decide +kernel

/-- Voices on every channel and both ends of the volume and the notes. -/
theorem witness_encoders :
    defaultConfig.wf ∧ ParamsOk defaultConfig defaultParams ∧ (0 : Nat) ≤ 15 ∧ (15 : Nat) ≤ 15 ∧
    (sounding 127 0 1 true .decay 1).note ≤ 127 ∧ (sounding 0 1 1 true .decay 1).channel.val < 2 ∧
    (sounding 0 2 1 true .decay 1).channel = 2 ∧ (sounding 127 3 1 true .decay 1).channel = 3 :=
  ⟨witness_default_config, witness_default_params, by decide, by decide, by decide, by decide, rfl, rfl⟩

theorem witness_SilenceAndInitWrites : defaultParams.duty ≤ 3 := by decide

theorem witness_PeriodFunctions :
    (0 : Rat) < 440 ∧ defaultConfig.nesClock = 1789773 ∧ defaultConfig.gbClock = 4194304 := by decide +kernel

theorem witness_NoiseIgnoresPitch : ((fourVoices .gb).voice 3).channel = 3 := by decide +kernel

/-- Every factor's clause has a state: both EXP2 and SIN2PI as the approximation, no bend, the pitch-envelope levels,
vibrato off and on at the four phases, detune on channel 1 under both pulses, another channel and a mask without one. -/
theorem witness_PitchFactors :
    defaultConfig.exp2 = .approximation ∧ defaultConfig.sin2pi = .approximation ∧
    (fresh .nes).bend = 0 ∧ ((fresh .nes).voice 0).penv = 0 ∧ (fresh .nes).params.vibDepth = 0 ∧
    { (fresh .nes) with lfoPhase := 1 / 4, params := { defaultParams with vibDepth := 100, vibRate := 5 } }.lfoPhase =
      (1 / 4 : Rat) ∧
    (fresh .nes).params.detune = 0 ∧
    maskBit defaultConfig (fresh .nes).params 0 ∧ maskBit defaultConfig (fresh .nes).params 1 ∧
    ¬maskBit defaultConfig (withAlloc .auto 2 0 (fresh .nes)).params 0 ∧
    (sounding 64 1 2 true .decay 1).channel = 1 ∧ (sounding 64 0 2 true .decay 1).channel ≠ 1 := by
  unfold maskBit
  decide +kernel

theorem witness_NotePeriodsExact :
    defaultConfig.exp2 = .approximation ∧ defaultConfig.a4Hz = 440 ∧ defaultConfig.a4Note = 69 ∧
    defaultConfig.nesClock = 1789773 ∧ defaultConfig.gbClock = 4194304 ∧ 0 ≤ 127 ∧ 127 ≤ 127 := by decide

theorem witness_RecordsAreEmitted :
    recordChip (.nesPulse1Ctrl 0xB0) = some .nes ∧ recordChip (.gbWaveRamF 0x10) = some .gb ∧
    State.reset.inst = none ∧ (on (fresh .gb)).inst = some (fresh .gb) := ⟨rfl, rfl, rfl, rfl⟩

end Sys2Proof.Machine.Tests
end

section
/-! PROOFS. The register-write records delivered as instructions (O60) and the values at reset (O1). -/

namespace Sys2Proof.Machine

/-- Settles O60: a record is the `Emit` of its pattern (`updateOf_record`), and an `Emit` updates nothing
but the block's own record. -/
theorem recordsAreEmitted : Obligations.RecordsAreEmitted := by
  intro i c s hc
  obtain ⟨a, v, hencode, -, hupdate⟩ := updateOf_record hc
  refine ⟨a, v, hencode, fun hnull => ?_, fun I hI => ?_⟩
  · rw [exec_update hupdate, onInstance_none _ hnull]
  · rw [exec_update hupdate, onInstance_some _ hI]
    rfl

/-- The default NES noise table, entry by entry (R276, D27). -/
theorem defaultNesNoise_getElem? {n : Nat} (h : n < 128) : defaultNesNoise[n]? = some (15 - n / 8) := by
  simp [defaultNesNoise, h, Nat.shiftRight_eq_div_pow]

/-- The default Game Boy noise table, entry by entry: the shift stands above the three bits of the divisor, so the
byte is their sum (R307, D30). -/
theorem defaultGbNoise_getElem? {n : Nat} (h : n < 128) :
    defaultGbNoise[n]? = some (BitVec.ofNat 8 ((13 - n / 8) * 16 + (7 - n % 8))) := by
  have hmod : n &&& 7 = n % 8 := Nat.and_two_pow_sub_one_eq_mod n 3
  have hor : (13 - n / 8) <<< 4 ||| (7 - n % 8) = (13 - n / 8) * 16 + (7 - n % 8) := by
    rw [← Nat.shiftLeft_add_eq_or_of_lt (show 7 - n % 8 < 2 ^ 4 by omega), Nat.shiftLeft_eq]
  rw [← hor]
  simp [defaultGbNoise, h, Nat.shiftRight_eq_div_pow, hmod]

/-- Settles O1: the numbers and the wavetable are the fields of `defaultConfig`, the note tables are read entry by
entry. -/
theorem resetIsNullState : Obligations.ResetIsNullState :=
  ⟨rfl, rfl, rfl, rfl, rfl, rfl, rfl, rfl, rfl, rfl, rfl, rfl, rfl, rfl, rfl, rfl, rfl, rfl, rfl, rfl, rfl,
    fun _ => defaultNesNoise_getElem?, fun _ => defaultGbNoise_getElem?⟩

end Sys2Proof.Machine
end

section
/-! PROOFS. The named approximations of EXP2 and SIN2PI against the real functions (O58): their Horner polynomials
are the first terms of the exponential series, whose remainders Mathlib bounds. -/

namespace Sys2Proof.Machine

/-! ### The Taylor polynomials of `Machine/Reals.lean` as sums -/

/-- The Horner form of `expPoly` as a sum: the first k terms of the exponential series, then `acc` on the next power. -/
theorem expPoly_eq_sum (t : Rat) (k : Nat) (acc : Rat) :
    expPoly t k acc = (∑ m ∈ Finset.range k, t ^ m / m.factorial) + t ^ k / k.factorial * acc := by
  induction k generalizing acc with
  | zero => simp [expPoly]
  | succ k ih =>
    rw [expPoly, ih, Finset.sum_range_succ, Nat.factorial_succ]
    push_cast
    field_simp
    ring

/-- With `acc = 1`, `expPoly` is the Taylor polynomial of degree k of the exponential. -/
theorem expPoly_one_eq_sum (t : Rat) (k : Nat) :
    expPoly t k 1 = ∑ m ∈ Finset.range (k + 1), t ^ m / m.factorial := by
  rw [expPoly_eq_sum, mul_one, Finset.sum_range_succ]

/-- The n-term partial sum of the series of the cosine (`e = 0`), or of the sine divided by its argument (`e = 1`),
at the square y of the argument. -/
noncomputable def trigSum (e : Nat) (y : ℝ) (n : Nat) : ℝ :=
  ∑ j ∈ Finset.range n, (-y) ^ j / (e + 2 * j).factorial

/-- The Horner form of `trigPoly` as a sum, as `expPoly_eq_sum`. -/
theorem trigPoly_eq_sum (y : Rat) (e k : Nat) (acc : Rat) :
    trigPoly y (e + 1) k acc = e.factorial *
      ((∑ j ∈ Finset.range k, (-y) ^ j / (e + 2 * j).factorial) + (-y) ^ k / (e + 2 * k).factorial * acc) := by
  induction k generalizing acc with
  | zero => simp [trigPoly, Nat.factorial_ne_zero]
  | succ k ih =>
    have hfac : (e + 2 * (k + 1)).factorial = (e + 2 * k + 2) * ((e + 2 * k + 1) * (e + 2 * k).factorial) := rfl
    have hd : ((((e + 1 + 2 * k) * (e + 1 + 2 * k + 1) : Nat)) : Rat) = (e + 2 * k + 2) * (e + 2 * k + 1) := by
      push_cast; ring
    rw [trigPoly, ih, Finset.sum_range_succ, hfac, hd]
    push_cast
    field_simp
    ring

/-- With `acc = 1`, `trigPoly` is a partial sum of the series. -/
theorem cast_trigPoly (y : Rat) (e k : Nat) :
    ((trigPoly y (e + 1) k 1 : Rat) : ℝ) = e.factorial * trigSum e y (k + 1) := by
  rw [trigPoly_eq_sum, trigSum, mul_one, ← Finset.sum_range_succ]
  push_cast
  rfl

/-! ### EXP2 (R12) -/

theorem abs_expPoly_sub_exp_le {t : Rat} (h0 : 0 ≤ t) (h1 : t ≤ 1) :
    |((expPoly t 33 1 : Rat) : ℝ) - Real.exp t| ≤ 1 / 2 ^ 120 := by
  have ht : |(t : ℝ)| ≤ 1 := by
    rw [abs_of_nonneg (by exact_mod_cast h0)]
    exact_mod_cast h1
  have hsum : ((expPoly t 33 1 : Rat) : ℝ) = ∑ m ∈ Finset.range 34, (t : ℝ) ^ m / m.factorial := by
    rw [expPoly_one_eq_sum]
    push_cast
    rfl
  rw [hsum, abs_sub_comm]
  calc _ ≤ |(t : ℝ)| ^ 34 * ((Nat.succ 34 : ℕ) / ((Nat.factorial 34 : ℕ) * (34 : ℕ))) :=
        Real.exp_bound ht (by norm_num)
    _ ≤ 1 * ((Nat.succ 34 : ℕ) / ((Nat.factorial 34 : ℕ) * (34 : ℕ))) := by
        gcongr
        exact pow_le_one₀ (abs_nonneg _) ht
    _ ≤ 1 / 2 ^ 120 := by norm_num [Nat.factorial]

/-- The model's own polynomial certifies the decimals of `ln2`: at `ln2` it is 2 up to 2^-120. -/
theorem abs_expPoly_ln2_sub_two_le : |expPoly ln2 33 1 - 2| ≤ 1 / 2 ^ 120 := by decide +kernel

/-- The decimals of `ln2`, from the polynomial's value there: with d the error, e^ln2 is 2 e^d. -/
theorem abs_ln2_sub_log_two_le : |(ln2 : ℝ) - Real.log 2| ≤ 1 / 2 ^ 119 := by
  have hpoly := (Rat.cast_le (K := ℝ)).2 abs_expPoly_ln2_sub_two_le
  push_cast at hpoly
  have hexp := abs_expPoly_sub_exp_le (t := ln2) (by norm_num [ln2]) (by norm_num [ln2])
  set d : ℝ := (ln2 : ℝ) - Real.log 2 with hd
  have htwo : Real.exp ln2 = 2 * Real.exp d := by
    rw [hd, Real.exp_sub, Real.exp_log two_pos]
    ring
  rw [htwo] at hexp
  rw [abs_le] at hpoly hexp ⊢
  have hup : d + 1 ≤ Real.exp d := Real.add_one_le_exp d
  have hlow : 1 - d ≤ (Real.exp d)⁻¹ := by
    rw [← Real.exp_neg]
    linarith [Real.add_one_le_exp (-d)]
  have hinv : (Real.exp d)⁻¹ ≤ 1 + 1 / 2 ^ 119 := by
    rw [inv_le_comm₀ (Real.exp_pos d) (by positivity)]
    norm_num at hpoly hexp ⊢
    linarith
  constructor <;> norm_num at hpoly hexp hinv ⊢ <;> linarith

/-- On the fractional part f the polynomial of `exp2Approx` stands for 2^f: the remainder of the series and the error of
`ln2` in the exponent together stay below a relative 2^-100. -/
theorem abs_expPoly_sub_two_rpow_le {f : Rat} (h0 : 0 ≤ f) (h1 : f < 1) :
    |((expPoly (f * ln2) 33 1 : Rat) : ℝ) - (2 : ℝ) ^ (f : ℝ)| ≤ 1 / 2 ^ 100 * (2 : ℝ) ^ (f : ℝ) := by
  have hf0 : (0 : ℝ) ≤ f := by exact_mod_cast h0
  have hf1 : (f : ℝ) ≤ 1 := by exact_mod_cast h1.le
  have hln0 : 0 ≤ ln2 := by norm_num [ln2]
  have hln1 : ln2 ≤ 1 := by norm_num [ln2]
  have hpoly := abs_expPoly_sub_exp_le (t := f * ln2) (by positivity) (mul_le_one₀ h1.le hln0 hln1)
  push_cast at hpoly
  have hone : 1 ≤ (2 : ℝ) ^ (f : ℝ) := Real.one_le_rpow one_le_two hf0
  set d : ℝ := f * (ln2 - Real.log 2) with hd
  have hdle : |d| ≤ 1 / 2 ^ 119 := by
    rw [hd, abs_mul, abs_of_nonneg hf0]
    exact (mul_le_of_le_one_left (abs_nonneg _) hf1).trans abs_ln2_sub_log_two_le
  have hexp : Real.exp (f * ln2) = (2 : ℝ) ^ (f : ℝ) * Real.exp d := by
    rw [Real.rpow_def_of_pos two_pos, ← Real.exp_add]
    congr 1
    rw [hd]
    ring
  have hexpd : |Real.exp d - 1| ≤ 1 / 2 ^ 118 := by
    refine (Real.abs_exp_sub_one_le (hdle.trans (by norm_num))).trans ?_
    norm_num at hdle ⊢
    linarith
  calc |((expPoly (f * ln2) 33 1 : Rat) : ℝ) - (2 : ℝ) ^ (f : ℝ)|
      = |(((expPoly (f * ln2) 33 1 : Rat) : ℝ) - Real.exp (f * ln2)) + (2 : ℝ) ^ (f : ℝ) * (Real.exp d - 1)| := by
        rw [hexp]
        ring_nf
    _ ≤ 1 / 2 ^ 120 + (2 : ℝ) ^ (f : ℝ) * (1 / 2 ^ 118) := by
        refine (abs_add_le _ _).trans (add_le_add hpoly ?_)
        rw [abs_mul, abs_of_pos (by positivity)]
        gcongr
    _ ≤ 1 / 2 ^ 100 * (2 : ℝ) ^ (f : ℝ) := by
        norm_num
        linarith

theorem abs_exp2Approx_sub_two_rpow_le (x : Rat) :
    |((exp2Approx x : Rat) : ℝ) - (2 : ℝ) ^ (x : ℝ)| ≤ 1 / 2 ^ 100 * (2 : ℝ) ^ (x : ℝ) := by
  have hfract := abs_expPoly_sub_two_rpow_le (Int.fract_nonneg x) (Int.fract_lt_one x)
  have hpow : (2 : ℝ) ^ (x : ℝ) = (2 : ℝ) ^ ((Int.fract x : Rat) : ℝ) * (2 : ℝ) ^ (⌊x⌋ : Int) := by
    rw [← Real.rpow_intCast, ← Real.rpow_add two_pos]
    congr 1
    exact_mod_cast (Int.fract_add_floor x).symm
  have happrox : ((exp2Approx x : Rat) : ℝ) =
      ((expPoly (Int.fract x * ln2) 33 1 : Rat) : ℝ) * (2 : ℝ) ^ (⌊x⌋ : Int) := by
    rw [exp2Approx, Int.self_sub_floor]
    push_cast
    rfl
  rw [happrox, hpow, ← sub_mul, abs_mul, abs_of_pos (a := (2 : ℝ) ^ (⌊x⌋ : Int)) (by positivity), ← mul_assoc]
  gcongr

theorem exp2Approx_intCast (z : Int) : exp2Approx z = (2 : Rat) ^ z := by
  have hpoly : expPoly 0 33 1 = 1 := by decide +kernel
  simp [exp2Approx, hpoly]

/-! ### SIN2PI (R12) -/

/-- The first 2n terms of e^(iθ) are the first n terms of the cosine and i times those of the sine. -/
theorem sum_exp_mul_I (θ : ℝ) (n : Nat) :
    ∑ m ∈ Finset.range (2 * n), ((θ : ℂ) * Complex.I) ^ m / m.factorial =
      (trigSum 0 (θ * θ) n : ℂ) + ((θ * trigSum 1 (θ * θ) n : ℝ) : ℂ) * Complex.I := by
  induction n with
  | zero => simp [trigSum]
  | succ n ih =>
    have heven : ((θ : ℂ) * Complex.I) ^ (2 * n) = (-(θ * θ)) ^ n := by
      rw [pow_mul, mul_pow, Complex.I_sq]
      ring
    rw [show 2 * (n + 1) = 2 * n + 1 + 1 from rfl, Finset.sum_range_succ, Finset.sum_range_succ, ih, pow_succ, heven]
    simp only [trigSum, Finset.sum_range_succ, zero_add, Nat.add_comm 1]
    push_cast
    ring

theorem norm_exp_mul_I_sub_sum_le {θ : ℝ} (h : |θ| ≤ 1) :
    ‖Complex.exp (θ * Complex.I) - ((trigSum 0 (θ * θ) 19 : ℂ) + ((θ * trigSum 1 (θ * θ) 19 : ℝ) : ℂ) * Complex.I)‖ ≤
      1 / 2 ^ 100 := by
  have hnorm : ‖(θ : ℂ) * Complex.I‖ = |θ| := by simp
  have hle : ‖(θ : ℂ) * Complex.I‖ ≤ 1 := by rwa [hnorm]
  rw [← sum_exp_mul_I]
  calc _ ≤ ‖(θ : ℂ) * Complex.I‖ ^ 38 * ((Nat.succ 38 : ℕ) * ((Nat.factorial 38 : ℕ) * (38 : ℕ) : ℝ)⁻¹) :=
        Complex.exp_bound hle (by norm_num)
    _ ≤ 1 * ((Nat.succ 38 : ℕ) * ((Nat.factorial 38 : ℕ) * (38 : ℕ) : ℝ)⁻¹) := by
        gcongr
        exact pow_le_one₀ (norm_nonneg _) hle
    _ ≤ 1 / 2 ^ 100 := by norm_num [Nat.factorial]

theorem abs_cos_sub_trigSum_le {θ : ℝ} (h : |θ| ≤ 1) : |Real.cos θ - trigSum 0 (θ * θ) 19| ≤ 1 / 2 ^ 100 := by
  have hre := (Complex.abs_re_le_norm _).trans (norm_exp_mul_I_sub_sum_le h)
  simpa [Complex.exp_ofReal_mul_I_re] using hre

theorem abs_sin_sub_trigSum_le {θ : ℝ} (h : |θ| ≤ 1) : |Real.sin θ - θ * trigSum 1 (θ * θ) 19| ≤ 1 / 2 ^ 100 := by
  have him := (Complex.abs_im_le_norm _).trans (norm_exp_mul_I_sub_sum_le h)
  simpa [Complex.exp_ofReal_mul_I_im] using him

theorem abs_pi_sub_real_pi_le : |(pi : ℝ) - Real.pi| ≤ 1 / 10 ^ 20 := by
  have hlow := Real.pi_gt_d20
  have hhigh := Real.pi_lt_d20
  rw [abs_le]
  constructor <;> norm_num [pi] at hlow hhigh ⊢ <;> linarith

/-- An angle of at most an eighth of a turn, taken with the model's π: at most 1 and near the exact angle. -/
theorem angle_bounds {u : Rat} (h0 : 0 ≤ u) (h1 : u ≤ 1 / 8) :
    |((2 * pi * u : Rat) : ℝ)| ≤ 1 ∧ |((2 * pi * u : Rat) : ℝ) - 2 * Real.pi * u| ≤ 1 / 10 ^ 20 := by
  have hu0 : (0 : ℝ) ≤ u := by exact_mod_cast h0
  have hu1 : (u : ℝ) ≤ 1 / 8 := by simpa using (Rat.cast_le (K := ℝ)).2 h1
  have hpi := abs_pi_sub_real_pi_le
  have hlt := Real.pi_lt_four
  have hpi4 : (pi : ℝ) ≤ 4 := by norm_num [pi]
  have hpi0 : (0 : ℝ) ≤ pi := by norm_num [pi]
  constructor
  · push_cast
    rw [abs_of_nonneg (by positivity)]
    nlinarith
  · push_cast
    rw [show 2 * (pi : ℝ) * u - 2 * Real.pi * u = 2 * u * (pi - Real.pi) by ring, abs_mul,
      abs_of_nonneg (by positivity)]
    exact (mul_le_of_le_one_left (abs_nonneg _) (by linarith)).trans hpi

/-- The sine's polynomial, up to an eighth of a turn. -/
theorem abs_sinPoly_sub_sin_le {u : Rat} (h0 : 0 ≤ u) (h1 : u ≤ 1 / 8) :
    |((2 * pi * u * trigPoly (2 * pi * u * (2 * pi * u)) 2 18 1 : Rat) : ℝ) - Real.sin (2 * Real.pi * u)| ≤
      1 / 2 ^ 60 := by
  obtain ⟨hone, hangle⟩ := angle_bounds h0 h1
  generalize 2 * pi * u = θ at hone hangle ⊢
  have hpoly := abs_sin_sub_trigSum_le hone
  have hsin := (Real.abs_sin_sub_sin_le _ _).trans hangle
  rw [Rat.cast_mul, cast_trigPoly]
  push_cast [Nat.factorial_one, one_mul] at hpoly ⊢
  rw [abs_le] at hpoly hsin ⊢
  constructor <;> norm_num at hpoly hsin ⊢ <;> linarith

/-- The cosine's polynomial, up to an eighth of a turn. -/
theorem abs_cosPoly_sub_cos_le {u : Rat} (h0 : 0 ≤ u) (h1 : u ≤ 1 / 8) :
    |((trigPoly (2 * pi * u * (2 * pi * u)) 1 18 1 : Rat) : ℝ) - Real.cos (2 * Real.pi * u)| ≤ 1 / 2 ^ 60 := by
  obtain ⟨hone, hangle⟩ := angle_bounds h0 h1
  generalize 2 * pi * u = θ at hone hangle ⊢
  have hpoly := abs_cos_sub_trigSum_le hone
  have hcos := (Real.abs_cos_sub_cos_le _ _).trans hangle
  rw [cast_trigPoly]
  push_cast [Nat.factorial_zero, one_mul] at hpoly ⊢
  rw [abs_le] at hpoly hcos ⊢
  constructor <;> norm_num at hpoly hcos ⊢ <;> linarith

theorem abs_sinQuarter_sub_sin_le {u : Rat} (h0 : 0 ≤ u) (h1 : u ≤ 1 / 4) :
    |((sinQuarter u : Rat) : ℝ) - Real.sin (2 * Real.pi * u)| ≤ 1 / 2 ^ 60 := by
  unfold sinQuarter
  split_ifs with h
  · exact abs_sinPoly_sub_sin_le h0 h
  · have hcomplement : Real.sin (2 * Real.pi * u) = Real.cos (2 * Real.pi * ((1 / 4 - u : Rat) : ℝ)) := by
      rw [← Real.cos_pi_div_two_sub]
      congr 1
      push_cast
      ring
    rw [hcomplement]
    exact abs_cosPoly_sub_cos_le (by linarith) (by linarith)

theorem abs_neg_sinQuarter_sub_neg_sin_le {u : Rat} (h0 : 0 ≤ u) (h1 : u ≤ 1 / 4) :
    |((-sinQuarter u : Rat) : ℝ) - -Real.sin (2 * Real.pi * u)| ≤ 1 / 2 ^ 60 := by
  rw [Rat.cast_neg, ← neg_sub', abs_neg]
  exact abs_sinQuarter_sub_sin_le h0 h1

/-- The four quarters of a turn, each reduced to the first as `sin2piApprox` does. -/
theorem abs_sin2piApprox_sub_sin_le (x : Rat) :
    |((sin2piApprox x : Rat) : ℝ) - Real.sin (2 * Real.pi * x)| ≤ 1 / 2 ^ 60 := by
  have h0 := Int.fract_nonneg x
  have h1 := Int.fract_lt_one x
  have hturn : Real.sin (2 * Real.pi * x) = Real.sin (2 * Real.pi * (Int.fract x : Rat)) := by
    rw [← Real.sin_sub_int_mul_two_pi _ ⌊x⌋, ← Int.self_sub_floor]
    congr 1
    push_cast
    ring
  rw [hturn]
  unfold sin2piApprox
  rw [Int.self_sub_floor]
  generalize Int.fract x = r at h0 h1 ⊢
  simp only
  split_ifs with hq1 hq2 hq3
  · exact abs_sinQuarter_sub_sin_le h0 hq1
  · have hsin : Real.sin (2 * Real.pi * ((1 / 2 - r : Rat) : ℝ)) = Real.sin (2 * Real.pi * r) := by
      rw [← Real.sin_pi_sub]
      congr 1
      push_cast
      ring
    rw [← hsin]
    exact abs_sinQuarter_sub_sin_le (by linarith) (by linarith)
  · have hsin : -Real.sin (2 * Real.pi * ((r - 1 / 2 : Rat) : ℝ)) = Real.sin (2 * Real.pi * r) := by
      rw [← Real.sin_add_pi]
      congr 1
      push_cast
      ring
    rw [← hsin]
    exact abs_neg_sinQuarter_sub_neg_sin_le (by linarith) (by linarith)
  · have hsin : -Real.sin (2 * Real.pi * ((1 - r : Rat) : ℝ)) = Real.sin (2 * Real.pi * r) := by
      rw [← Real.sin_two_pi_sub]
      congr 1
      push_cast
      ring
    rw [← hsin]
    exact abs_neg_sinQuarter_sub_neg_sin_le (by linarith) (by linarith)

/-- Settles O58: each Taylor polynomial is within its remainder of the real function, and the decimals of `ln2` and
`pi` add less than is left. -/
theorem realFunctionsApproximated : Obligations.RealFunctionsApproximated :=
  ⟨abs_exp2Approx_sub_two_rpow_le, exp2Approx_intCast, abs_sin2piApprox_sub_sin_le⟩

end Sys2Proof.Machine
end

section
/-! PROOFS. The periods of all notes (O59): the error of EXP2 never carries a period across a rounding boundary. -/

namespace Sys2Proof.Machine

/-- The clamp to an 11-bit value, as a natural number. -/
theorem toNat_clamp_11bit (z : Int) : ((clamp z 0 2047).toNat : Int) = max 0 (min 2047 z) := by
  unfold clamp
  omega

/-- RND of a rational that is 1/2 below an affine function of a period w, read over the reals. -/
theorem rnd_eq_floor_affine {x : Rat} {c k w : ℝ} (h : (x : ℝ) + 1 / 2 = c + k * w) : rnd x = ⌊c + k * w⌋ := by
  rw [rnd, ← Rat.floor_cast (α := ℝ), ← h]
  push_cast
  rfl

section
variable (cfg : Config) (f : Rat)

theorem pulsePeriod_eq_floor : (pulsePeriod cfg f : Int) =
    max 0 (min 2047 ⌊-1 / 2 + (cfg.nesClock : ℝ) / 16 * (1 / (f : ℝ))⌋) := by
  rw [pulsePeriod, toNat_clamp_11bit, rnd_eq_floor_affine]
  push_cast
  ring

theorem triPeriod_eq_floor : (triPeriod cfg f : Int) =
    max 0 (min 2047 ⌊-1 / 2 + (cfg.nesClock : ℝ) / 32 * (1 / (f : ℝ))⌋) := by
  rw [triPeriod, toNat_clamp_11bit, rnd_eq_floor_affine]
  push_cast
  ring

theorem sqFreq_eq_floor : (sqFreq cfg f : Int) =
    max 0 (min 2047 ⌊4097 / 2 + -((cfg.gbClock : ℝ) / 32) * (1 / (f : ℝ))⌋) := by
  rw [sqFreq, toNat_clamp_11bit, rnd_eq_floor_affine]
  push_cast
  ring

theorem waveFreq_eq_floor : (waveFreq cfg f : Int) =
    max 0 (min 2047 ⌊4097 / 2 + -((cfg.gbClock : ℝ) / 64) * (1 / (f : ℝ))⌋) := by
  rw [waveFreq, toNat_clamp_11bit, rnd_eq_floor_affine]
  push_cast
  ring

end

/-- The frequency of note n under the default tuning (R200), by the real function. -/
noncomputable def realNoteFreq (n : Nat) : ℝ := 440 * (2 : ℝ) ^ (((n : ℝ) - 69) / 12)

/-- The inverse of the frequency of note n under the default tuning (R200), by the model's EXP2. -/
def notePeriod (n : Nat) : Rat := 1 / (440 * exp2Approx (((n : Rat) - 69) / 12))

/-- No rounding boundary of `c + k · w` lies within the error of EXP2 around the period of note n: both ends have the
same floor. -/
abbrev FloorSteady (c k : Rat) (n : Nat) : Prop :=
  ⌊c + k * ((1 - 1 / 2 ^ 100) * notePeriod n)⌋ = ⌊c + k * ((1 + 1 / 2 ^ 100) * notePeriod n)⌋

/-- The four affine functions of R271 and R301 under the default clocks. -/
theorem floorSteady_of_note : ∀ n < 128,
    FloorSteady (-1 / 2) (1789773 / 16) n ∧ FloorSteady (-1 / 2) (1789773 / 32) n ∧
      FloorSteady (4097 / 2) (-131072) n ∧ FloorSteady (4097 / 2) (-65536) n := by
  decide +kernel

/-- An affine function, rising or falling, takes one floor on an interval if it does at the two ends. -/
theorem floor_affine_eq {c k lo hi : Rat} (h : ⌊c + k * lo⌋ = ⌊c + k * hi⌋) {w : ℝ} (hlo : lo ≤ w) (hhi : w ≤ hi) :
    ⌊(c : ℝ) + k * w⌋ = ⌊c + k * lo⌋ := by
  have hcast : ∀ q : Rat, ⌊(c : ℝ) + k * q⌋ = ⌊c + k * q⌋ := fun q => by
    rw [← Rat.floor_cast (α := ℝ)]
    push_cast
    rfl
  rcases le_total 0 (k : ℝ) with hk | hk
  · refine le_antisymm ?_ ?_
    · rw [h, ← hcast]
      gcongr
    · rw [← hcast]
      gcongr
  · refine le_antisymm ?_ ?_
    · rw [← hcast]
      exact Int.floor_mono (by linarith [mul_le_mul_of_nonpos_left hlo hk])
    · rw [h, ← hcast]
      exact Int.floor_mono (by linarith [mul_le_mul_of_nonpos_left hhi hk])

/-- The exact period of a note lies within a relative 2^-100 of the model's. -/
theorem one_div_realNoteFreq_mem (n : Nat) :
    (1 - 1 / 2 ^ 100) * (notePeriod n : ℝ) ≤ 1 / realNoteFreq n ∧
      1 / realNoteFreq n ≤ (1 + 1 / 2 ^ 100) * (notePeriod n : ℝ) := by
  have herror := abs_exp2Approx_sub_two_rpow_le (((n : Rat) - 69) / 12)
  unfold realNoteFreq notePeriod
  push_cast at herror ⊢
  have hpos : 0 < (2 : ℝ) ^ (((n : ℝ) - 69) / 12) := by positivity
  generalize (2 : ℝ) ^ (((n : ℝ) - 69) / 12) = e at herror hpos ⊢
  generalize ((exp2Approx (((n : Rat) - 69) / 12) : Rat) : ℝ) = a at herror ⊢
  obtain ⟨hlow, hhigh⟩ := abs_le.1 herror
  have ha : 0 < a := by
    norm_num at hlow
    linarith
  constructor
  · rw [mul_one_div, div_le_div_iff₀ (by positivity) (by positivity)]
    linarith
  · rw [mul_one_div, div_le_div_iff₀ (by positivity) (by positivity)]
    linarith

/-- Where no boundary is near, the model's period and the exact one have the same floor. -/
theorem FloorSteady.floor_eq {c k : Rat} {n : Nat} (h : FloorSteady c k n) {x y : ℝ}
    (hx : x = c + k * notePeriod n) (hy : y = c + k * (1 / realNoteFreq n)) : ⌊x⌋ = ⌊y⌋ := by
  obtain ⟨hlow, hhigh⟩ := one_div_realNoteFreq_mem n
  have hpos : (0 : ℝ) ≤ notePeriod n := by linarith
  rw [hx, hy, floor_affine_eq h, floor_affine_eq h] <;> push_cast
  · exact hlow
  · exact hhigh
  · linarith
  · linarith

theorem one_div_noteFreq {cfg : Config} (hexp : cfg.exp2 = .approximation) (hhz : cfg.a4Hz = 440)
    (hnote : cfg.a4Note = 69) (n : Nat) : 1 / ((noteFreq cfg n : Rat) : ℝ) = notePeriod n := by
  simp [noteFreq, exp2, notePeriod, hexp, hhz, hnote]

/-- Settles O59: each period is a clamped floor of an affine function of the note's period, and no note lies so near a
boundary that the error of EXP2 could cross it. -/
theorem notePeriodsExact : Obligations.NotePeriodsExact := by
  intro cfg n hn hexp hhz hnote hnes hgb hz
  obtain ⟨hpulse, htri, hsq, hwave⟩ := floorSteady_of_note n (by omega)
  have hperiod := one_div_noteFreq hexp hhz hnote n
  have hreal : hz = realNoteFreq n := rfl
  clear_value hz
  subst hreal
  refine ⟨?_, ?_, ?_, ?_⟩
  · rw [pulsePeriod_eq_floor]
    congr 2
    exact hpulse.floor_eq (by rw [hperiod, hnes]; push_cast; ring) (by push_cast; ring)
  · rw [triPeriod_eq_floor]
    congr 2
    exact htri.floor_eq (by rw [hperiod, hnes]; push_cast; ring) (by push_cast; ring)
  · rw [sqFreq_eq_floor]
    congr 2
    exact hsq.floor_eq (by rw [hperiod, hgb]; push_cast; ring) (by push_cast; ring)
  · rw [waveFreq_eq_floor]
    congr 2
    exact hwave.floor_eq (by rw [hperiod, hgb]; push_cast; ring) (by push_cast; ring)

end Sys2Proof.Machine
end

section
/-! PROOFS. What an instruction that completes can have done, by instruction: `Updated` for those that act on an
existing instance alone, `Completed` for all of them, and the commands of the null state (O5). -/

namespace Sys2Proof.Machine

/-- What an instruction that acts on the instance alone makes of the instance `I`. -/
inductive Updated (cfg : Config) (I : Instance) : Instr → Instance → Prop where
  | noteOn (ch : BitVec 4) (n v : BitVec 7) :
      Updated cfg I (.noteOn ch n v) (I.noteOnAlloc cfg (xnote I.params n.toNat) v.toNat)
  | noteOff (ch : BitVec 4) (n v : BitVec 7) :
      Updated cfg I (.noteOff ch n v) (I.noteOffRelease (xnote I.params n.toNat))
  | noteOnV0 (ch : BitVec 4) (n : BitVec 7) :
      Updated cfg I (.noteOnV0 ch n) (I.noteOffRelease (xnote I.params n.toNat))
  | allNotesOff (ch : BitVec 4) (x : BitVec 7) : Updated cfg I (.ccAllNotesOff ch x) I.allVoicesOff
  | modWheel (ch : BitVec 4) (x : BitVec 7) : Updated cfg I (.ccModwheel ch x) (I.modWheel cfg x.toNat)
  | pitchBend (ch : BitVec 4) (b : BitVec 14) :
      Updated cfg I (.pitchBend ch b) { I with bend := bendSemitones cfg b.toNat }
  | setParam (id : BitVec 8) (v : BitVec 16) :
      Updated cfg I (.setParam id v) (I.setParam cfg id.toNat (paramValue v))
  | record {i : Instr} {c : Chip} {a : Addr} {v : Byte} (hc : recordChip i = some c)
      (ha : mappedRegister a.toNat = true) : Updated cfg I i (I.emit cfg a v)
  | ignored (i : Instr) : Updated cfg I i I

/-- The update of an instruction is the one `Updated` names for it. -/
theorem Updated.of_updateOf {i : Instr} {f : Config → Instance → Instance} (h : updateOf i = some f) (cfg : Config)
    (I : Instance) : Updated cfg I i (f cfg I) := by
  cases hc : recordChip i with
  | some c =>
    obtain ⟨a, v, -, hrow, hemit⟩ := updateOf_record hc
    obtain rfl := Option.some.inj (h.symm.trans hemit)
    exact .record hc (mapped_of_row hrow)
  | none =>
    cases i <;> simp only [recordChip, reduceCtorEq] at hc <;>
      simp only [updateOf, Option.some.injEq, reduceCtorEq] at h <;> subst h <;> constructor

/-- What an instruction that completes in the state `s` has made of it. -/
inductive Completed (s : State) : Instr → State → Prop where
  | updated {i : Instr} {I J : Instance} (hs : s.inst = some I) (hu : Updated s.cfg I i J) :
      Completed s i { s with inst := some J }
  | withoutInstance (i : Instr) (hs : s.inst = none) : Completed s i s
  | created (c : Chip) (hs : s.inst = none) :
      Completed s (.create c) { s with inst := some (Instance.reset s.cfg c), ret := .created }
  | createFailed (c : Chip) (hs : s.inst = none) : Completed s (.create c) { s with ret := .createFailed }
  | destroyed : Completed s .destroy { s with inst := none }
  | silent (f : BitVec 16) (hs : s.inst = none) :
      Completed s (.render f) { s with out := silence (2 * f.toNat) }
  | rendered {I : Instance} (f : BitVec 16) (hs : s.inst = some I) :
      Completed s (.render f) { s with
        inst := some (renderBlock s.cfg s.cfg.fpb I).1
        out := (renderBlock s.cfg s.cfg.fpb I).2 }
  | returned (id : BitVec 8) :
      Completed s (.getParam id) { s with ret := .param (s.inst.bind fun I => I.getParam id.toNat) }

theorem exec_create (c : Chip) (s : State) : exec (.create c) s = execCreate c s := rfl

theorem exec_render_null {s : State} (f : BitVec 16) (hs : s.inst = none) :
    exec (.render f) s = .next { s with out := silence (2 * f.toNat) } := by
  show execRender f s = _
  simp only [execRender, hs]

/-- GET_PARAM changes the returned value only (R376), which is none on ⊥ (R31). -/
theorem exec_getParam (id : BitVec 8) (s : State) :
    exec (.getParam id) s = .next { s with ret := .param (s.inst.bind fun I => I.getParam id.toNat) } := rfl

theorem exec_destroy (s : State) : exec .destroy s = .next { s with inst := none } := rfl

/-- All a CREATE that is not refused can do (R377). -/
theorem completed_of_create {c : Chip} {s t : State} (h : exec (.create c) s = .next t) :
    Completed s (.create c) t := by
  rw [exec_create] at h
  unfold execCreate at h
  split at h
  · cases h
  next hs =>
    split at h
    · cases h
      exact .created c hs
    · cases h
      exact .createFailed c hs

/-- All a RENDER that is not refused can do (R379, R403). -/
theorem completed_of_render {f : BitVec 16} {s t : State} (h : exec (.render f) s = .next t) :
    Completed s (.render f) t := by
  cases hs : s.inst with
  | none =>
    cases (exec_render_null f hs).symm.trans h
    exact .silent f hs
  | some I =>
    cases (exec_render hs (exec_render_next hs h)).symm.trans h
    exact .rendered f hs

/-- All an instruction that completes can do. -/
theorem completed_of_exec {i : Instr} {s t : State} (h : exec i s = .next t) : Completed s i t := by
  cases hf : updateOf i with
  | some f =>
    rw [exec_update hf] at h
    rcases onInstance_cases h with ⟨hs, rfl⟩ | ⟨I, hs, rfl⟩
    · exact .withoutInstance i hs
    · exact .updated hs (.of_updateOf hf s.cfg I)
  | none =>
    rcases updateOf_none hf with ⟨c, rfl⟩ | rfl | ⟨f, rfl⟩ | ⟨id, rfl⟩ | ⟨w, rfl⟩
    · exact completed_of_create h
    · cases h
      exact .destroyed
    · exact completed_of_render h
    · cases h
      exact .returned id
    · cases h

/-- Settles O5: an update of the instance has nothing to act on in the null state, and of the five other instructions
DESTROY finds it already null and GET_PARAM returns none. -/
theorem nullInstanceCommands : Obligations.NullInstanceCommands := by
  intro i s hnull hcreate hrender hreserved
  cases hf : updateOf i with
  | some f =>
    refine ⟨s.ret, ?_, fun _ => rfl, ?_⟩
    · rw [exec_update hf, onInstance_none f hnull]
    · rintro id rfl
      simp [updateOf] at hf
  | none =>
    rcases updateOf_none hf with ⟨c, rfl⟩ | rfl | ⟨f, rfl⟩ | ⟨id, rfl⟩ | ⟨w, rfl⟩
    · exact absurd rfl (hcreate c)
    · exact ⟨s.ret, by rw [exec_destroy, ← hnull], fun _ => rfl, fun id h => nomatch h⟩
    · exact absurd rfl (hrender f)
    · refine ⟨.param none, ?_, fun h => absurd rfl (h id), fun _ _ => rfl⟩
      rw [exec_getParam, hnull]
      rfl
    · exact absurd rfl (hreserved w)

end Sys2Proof.Machine
end

section
/-! PROOFS. What NOTE_ON may write (O23): each operation of the allocator leaves a slot its voice, deactivates it or
starts a new one there, and these compose. -/

namespace Sys2Proof.Machine

/-- A slot in the course of a note-on that started voices on channels of `ch` only and gave out the ages after `a` up to
`b`: it keeps its voice, has it deactivated, or holds a started one. -/
def Reallocated (cfg : Config) (P : Params) (n v : Nat) (ch : Fin 4 → Prop) (a b : Nat) (old now : Voice) : Prop :=
  now = old ∨ now = old.deactivate ∨
    ∃ c age, ch c ∧ a < age ∧ age ≤ b ∧ now = startedVoice cfg P old.env n v c age

/-- The instance `J` in the course of a note-on on `I` that has given out `m` ages: voices and the age counter are all
that changed. -/
structure NoteOnPart (cfg : Config) (n v : Nat) (ch : Fin 4 → Prop) (m : Nat) (I J : Instance) : Prop where
  frame : J = { I with voices := J.voices, ageCounter := J.ageCounter }
  length : J.voices.length = I.voices.length
  age : J.ageCounter = I.ageCounter + m
  voice : ∀ k, Reallocated cfg I.params n v ch I.ageCounter J.ageCounter (I.voice k) (J.voice k)

/-- No channel: that of a note-on that has started no voice yet. -/
abbrev NoChannel : Fin 4 → Prop := fun _ => False

section
variable {cfg : Config} {n v m : Nat} {ch ch' : Fin 4 → Prop} {I J K : Instance}

theorem Reallocated.mono {P : Params} {a b b' : Nat} {old now : Voice} (h : Reallocated cfg P n v ch a b old now)
    (hch : ∀ c, ch c → ch' c) (hb : b ≤ b') : Reallocated cfg P n v ch' a b' old now := by
  rcases h with e | e | ⟨c, age, hc, ha, hage, e⟩
  · exact .inl e
  · exact .inr (.inl e)
  · exact .inr (.inr ⟨c, age, hch c hc, ha, hage.trans hb, e⟩)

theorem Reallocated.level {P : Params} {a b : Nat} {old now : Voice} (h : Reallocated cfg P n v ch a b old now) :
    now.env.level = old.env.level := by
  rcases h with rfl | rfl | ⟨c, age, -, -, -, rfl⟩ <;> rfl

/-- Deactivating a voice that is none of those started. -/
theorem Reallocated.deactivate {P : Params} {a b : Nat} {old now : Voice} (h : Reallocated cfg P n v ch a b old now)
    (hc : ¬ch now.channel) : Reallocated cfg P n v ch a b old now.deactivate := by
  rcases h with rfl | rfl | ⟨c, age, hch, -, -, rfl⟩
  · exact .inr (.inl rfl)
  · exact .inr (.inl rfl)
  · exact absurd hch hc

theorem NoteOnPart.refl (I : Instance) : NoteOnPart cfg n v NoChannel 0 I I :=
  ⟨rfl, rfl, rfl, fun _ => .inl rfl⟩

theorem NoteOnPart.params (h : NoteOnPart cfg n v ch m I J) : J.params = I.params := by rw [h.frame]

theorem NoteOnPart.mono (h : NoteOnPart cfg n v ch m I J) (hch : ∀ c, ch c → ch' c) :
    NoteOnPart cfg n v ch' m I J :=
  ⟨h.frame, h.length, h.age, fun k => (h.voice k).mono hch le_rfl⟩

/-- An operation that only deactivates voices, none of them on a channel on which the note-on started one. -/
theorem NoteOnPart.deactivating (h : NoteOnPart cfg n v ch m I J) (hK : K = { J with voices := K.voices })
    (hlen : K.voices.length = J.voices.length)
    (hv : ∀ k, K.voice k = J.voice k ∨ (K.voice k = (J.voice k).deactivate ∧ ¬ch (J.voice k).channel)) :
    NoteOnPart cfg n v ch m I K := by
  have hage : K.ageCounter = J.ageCounter := by rw [hK]
  refine ⟨?_, hlen.trans h.length, hage.trans h.age, fun k => ?_⟩
  · calc K = { J with voices := K.voices } := hK
      _ = { I with voices := K.voices, ageCounter := J.ageCounter } := by rw [h.frame]
      _ = { I with voices := K.voices, ageCounter := K.ageCounter } := by rw [hage]
  · rw [hage]
    rcases hv k with e | ⟨e, hc⟩ <;> rw [e]
    · exact h.voice k
    · exact (h.voice k).deactivate hc

/-- VOICE_INIT starts a voice with the next age. -/
theorem NoteOnPart.voiceInit (h : NoteOnPart cfg n v ch m I J) (s : Nat) {c : Fin 4} (hc : ch c) :
    NoteOnPart cfg n v ch (m + 1) I (J.voiceInit cfg s n v c) := by
  refine ⟨by rw [h.frame]; rfl, (length_voiceInit ..).trans h.length,
    by rw [ageCounter_voiceInit, h.age, Nat.add_assoc], fun k => ?_⟩
  by_cases hk : s = k ∧ s < J.voices.length
  · obtain ⟨rfl, hs⟩ := hk
    rw [voice_voiceInit_started cfg J n v c hs, h.params, startedVoice_congr (h := (h.voice s).level)]
    exact .inr (.inr ⟨c, _, hc, by rw [ageCounter_voiceInit, h.age]; omega, le_rfl, rfl⟩)
  · have hkept : (J.voiceInit cfg s n v c).voice k = J.voice k := by
      show (J.setVoice s _).voice k = _
      rw [voice_setVoice, if_neg (by omega)]
    rw [hkept]
    exact (h.voice k).mono (fun _ => id) (Nat.le_succ _)

/-! ### The parts of NOTE_ON_ALLOC (R238) -/

theorem NoteOnPart.deactivate (h : NoteOnPart cfg n v NoChannel m I J) (s : Nat) :
    NoteOnPart cfg n v NoChannel m I (J.deactivate s) := by
  refine h.deactivating rfl (length_deactivate J s) fun k => ?_
  rw [voice_deactivate]
  split
  next hk => exact .inr ⟨by rw [hk], not_false⟩
  next => exact .inl rfl

theorem noteOnPart_leadClear (cfg : Config) (n v : Nat) (I : Instance) :
    NoteOnPart cfg n v NoChannel 0 I I.leadClear := by
  unfold Instance.leadClear
  split
  · exact (NoteOnPart.refl I).deactivating rfl (length_deactivateAll I) fun k =>
      .inr ⟨voice_deactivateAll I k, not_false⟩
  · exact .refl I

/-- After step 1 of R238 no voice is active in Lead mode. -/
theorem inactive_leadClear (I : Instance) (h : I.leadClear.params.mode = .lead) (s : Nat) :
    (I.leadClear.voice s).active = false := by
  unfold Instance.leadClear at h ⊢
  split
  · simp
  next hm =>
    rw [if_neg hm] at h
    exact absurd h hm

theorem NoteOnPart.channelSelect {c : Fin 4} (h : NoteOnPart cfg n v NoChannel m I J)
    (hlead : J.params.mode = .lead → ∀ s, (J.voice s).active = false) (hsel : J.channelSelect cfg n = some (c, K)) :
    NoteOnPart cfg n v NoChannel m I K := by
  rcases channelSelect_cases hlead hsel with ⟨rfl, -⟩ | ⟨w, rfl, -⟩
  · exact h
  · exact h.deactivate w

theorem NoteOnPart.slotSelect (h : NoteOnPart cfg n v NoChannel m I J) :
    NoteOnPart cfg n v NoChannel m I J.slotSelect.2 := by
  rcases slotSelect_snd J with e | ⟨s, e⟩ <;> rw [e]
  · exact h
  · exact h.deactivate s

/-- Clearing channel 1 leaves a main voice on channel 0 alone (R239). -/
theorem NoteOnPart.leaveChannel1 (h : NoteOnPart cfg n v (· = 0) m I J) :
    NoteOnPart cfg n v (· = 0) m I (J.mapVoices Voice.leaveChannel1) := by
  refine h.deactivating rfl (length_mapVoices J _) fun k => ?_
  rw [voice_leaveChannel1]
  split
  next hk =>
    have h1 : (J.voice k).channel = 1 := by simp_all
    exact .inr ⟨rfl, by rw [h1]; decide⟩
  next => exact .inl rfl

/-- The unison double of a main voice on channel 0 takes one more age, if it is made. -/
theorem NoteOnPart.autoUnison (h : NoteOnPart cfg n v (· = 0) m I J) :
    ∃ m' ≤ m + 1, NoteOnPart cfg n v (fun _ => True) m' I (J.autoUnison cfg n v) := by
  unfold Instance.autoUnison
  split
  · exact ⟨m, Nat.le_succ m, h.mono fun _ _ => trivial⟩
  next s2 _ => exact ⟨m + 1, le_rfl, (h.leaveChannel1.mono fun _ _ => trivial).voiceInit s2 trivial⟩

/-- NOTE_ON_ALLOC gives out at most two ages. -/
theorem noteOnPart_noteOnAlloc (cfg : Config) (n v : Nat) (I : Instance) :
    ∃ m ≤ 2, NoteOnPart cfg n v (fun _ => True) m I (I.noteOnAlloc cfg n v) := by
  have hclear := noteOnPart_leadClear cfg n v I
  unfold Instance.noteOnAlloc
  cases hsel : I.leadClear.channelSelect cfg n with
  | none => exact ⟨0, by omega, hclear.mono fun _ _ => trivial⟩
  | some r =>
    obtain ⟨c, J⟩ := r
    have hslot := (hclear.channelSelect (inactive_leadClear I) hsel).slotSelect
    have hmain := (hslot.mono (ch' := (· = c)) fun _ => False.elim).voiceInit J.slotSelect.1 rfl
    simp only
    split
    next hwanted =>
      obtain rfl : c = 0 := by simp_all [unisonWanted]
      exact hmain.autoUnison
    next => exact ⟨1, by omega, hmain.mono fun _ _ => trivial⟩

end

/-- NOTE_ON is NOTE_ON_ALLOC of the transposed note (R361, R362). -/
theorem exec_noteOn {s : State} {I : Instance} (hs : s.inst = some I) (ch : BitVec 4) (n v : BitVec 7) :
    exec (.noteOn ch n v) s =
      .next { s with inst := some (I.noteOnAlloc s.cfg (transposed I.params n) v.toNat) } := by
  rw [exec_update rfl, onInstance_some _ hs, xnote_eq_transposed]

/-- Settles O23, from the parts of NOTE_ON_ALLOC. -/
theorem noteOnFrame : Obligations.NoteOnFrame := by
  intro s I ch n v hs
  obtain ⟨m, hm, h⟩ := noteOnPart_noteOnAlloc s.cfg (transposed I.params n) v.toNat I
  have hage := h.age
  refine ⟨_, exec_noteOn hs ch n v, h.frame, h.length, by omega, by omega, fun k => ?_⟩
  rcases h.voice k with e | e | ⟨c, age, -, hlow, hhigh, e⟩
  · exact .inl e
  · exact .inr (.inl e)
  · exact .inr (.inr ⟨c, age, hlow, hhigh, e⟩)

end Sys2Proof.Machine
end

section
/-! PROOFS. The invariant: it holds at reset and of every created instance (O17), and every step keeps it (O18). A
decoded instruction is well formed, so a note-on has a velocity. -/

namespace Sys2Proof

/-! ### A decoded instruction is well formed -/

theorem recordRow_wf {a : Nat} {v : Byte} {i : Instr} (h : recordRow a v = some i) : i.wf = true := by
  unfold recordRow at h
  split at h <;> cases h <;> rfl

theorem Instr.wf_ite {p : Prop} [Decidable p] {i j : Instr} (hi : p → i.wf = true) (hj : ¬p → j.wf = true) :
    (if p then i else j).wf = true := by
  split
  next h => exact hi h
  next h => exact hj h

/-- Three rows have a condition: the branch that leads to each says it. -/
theorem decodeMidi_wf (w : Word) : (decodeMidi w).wf = true := by
  unfold decodeMidi
  simp only
  repeat' refine Instr.wf_ite (fun _ => ?_) (fun _ => ?_)
  any_goals rfl
  next hmalformed => exact (Bool.and_eq_true_iff.1 hmalformed).2
  next hvelocity => exact bne_iff_ne.2 hvelocity
  next hwheel hoff => exact Bool.and_eq_true_iff.2 ⟨bne_iff_ne.2 hwheel, bne_iff_ne.2 hoff⟩

theorem decodeCommand_wf (w : Word) : (decodeCommand w).wf = true := by
  unfold decodeCommand
  simp only
  refine Instr.wf_ite (fun _ => decodeMidi_wf w) fun _ => Instr.wf_ite id fun _ => ?_
  repeat' refine Instr.wf_ite (fun _ => ?_) (fun _ => ?_)
  all_goals rfl

theorem decode_wf {p : Packet} {i : Instr} (h : decode p = .ok i) : i.wf = true := by
  cases p with
  | command w =>
    cases h
    exact decodeCommand_wf w
  | record r =>
    change decodeRecord r = .ok i at h
    unfold decodeRecord at h
    split at h
    next hrow =>
      cases h
      exact recordRow_wf hrow
    · cases h

end Sys2Proof

namespace Sys2Proof.Machine

/-! ### Reset and creation -/

theorem bendRange_pos {cfg : Config} (hc : cfg.wf) : (0 : Rat) < cfg.bendRange := by
  obtain ⟨-, -, -, -, -, -, h, -⟩ := hc
  exact_mod_cast h

theorem wavetables_pos {cfg : Config} (hc : cfg.wf) : 0 < cfg.wavetables.length := by
  obtain ⟨-, -, -, -, -, -, -, -, -, -, -, h, -⟩ := hc
  exact h

theorem presets_pos {cfg : Config} (hc : cfg.wf) : 0 < cfg.presets.length := by
  obtain ⟨-, -, -, -, -, -, -, -, -, -, -, -, h, -⟩ := hc
  exact h

theorem ParamsOk.default {cfg : Config} (hc : cfg.wf) : ParamsOk cfg defaultParams := by
  constructor
  case wavetable => exact wavetables_pos hc
  all_goals decide

theorem VoiceOk.created {cfg : Config} (hc : cfg.wf) (ctr : Nat) : VoiceOk ctr (Voice.created cfg) where
  note := Nat.zero_le _
  velocity := Nat.zero_le _
  env := EnvelopeOk.created hc
  penvLow := by show (-24 : Rat) ≤ 0; norm_num
  penvHigh := by show (0 : Rat) ≤ 24; norm_num
  activeStage := nofun
  activeVelocity := nofun
  activeAge := nofun

/-- After creation every slot holds the created voice (R54, R440). -/
theorem voice_reset (cfg : Config) (c : Chip) (k : Nat) :
    (Instance.reset cfg c).voice k = Voice.created cfg ∨ (Instance.reset cfg c).voice k = Voice.absent := by
  by_cases hk : k < cfg.poolSize
  · exact .inl (by simp [Instance.voice, Instance.reset, hk])
  · exact .inr (voice_of_le (by simpa [Instance.reset] using hk))

theorem inactive_reset (cfg : Config) (c : Chip) (k : Nat) : ¬((Instance.reset cfg c).voice k).active = true := by
  rcases voice_reset cfg c k with e | e <;> rw [e] <;> nofun

theorem InstanceOk.created {cfg : Config} (hc : cfg.wf) (c : Chip) : InstanceOk cfg (Instance.reset cfg c) where
  params := .default hc
  presetId := presets_pos hc
  pool := List.length_replicate
  voices k := by
    rcases voice_reset cfg c k with e | e <;> rw [e]
    · exact .created hc 0
    · exact .absent 0
  channelBelow k hk := absurd hk (inactive_reset cfg c k)
  channels k _ hk := absurd hk (inactive_reset cfg c k)
  ages k _ hk := absurd hk (inactive_reset cfg c k)
  lfoLow := le_rfl
  lfoHigh := zero_lt_one
  bendLow := neg_nonpos.2 (bendRange_pos hc).le
  bendHigh := bendRange_pos hc
  writeTimes := rfl
  writesMapped _ h := nomatch h
  enqueuedMapped _ h := nomatch h
  regsForm := Memory.wf_created
  regsMapped r hr := mapped_of_mem (Memory.addresses_created ▸ List.mem_map_of_mem hr)
  regsAll := Memory.addresses_created

theorem defaultConfig_wf : defaultConfig.wf := by decide +kernel

/-- Settles O17: no voice is active after creation, and the ranges are those of the default parameters. -/
theorem invariantAtResetAndCreation : Obligations.InvariantAtResetAndCreation :=
  ⟨⟨defaultConfig_wf, fun _ h => nomatch h⟩, fun _ c hc => .created hc c⟩

/-! ### Steps -/

/-- NOTE_ON_ALLOC keeps the invariant, for a velocity a note-on can have. -/
theorem InstanceOk.noteOnAlloc {cfg : Config} (hc : cfg.wf) {I : Instance} (h : InstanceOk cfg I) {n v : Nat}
    (hn : n ≤ 127) (hv : v ≤ 127) (hv1 : 1 ≤ v) : InstanceOk cfg (I.noteOnAlloc cfg n v) := by
  obtain ⟨hpool, hlen, hframe⟩ := h.poolOk.noteOnAlloc hc h.params (h.slotThere hc) hn hv hv1
  exact h.withPool hpool hlen hframe

/-- Every well-formed update keeps the invariant of the instance. -/
theorem InstanceOk.updated {cfg : Config} (hc : cfg.wf) {I J : Instance} (h : InstanceOk cfg I) {i : Instr}
    (hi : i.wf = true) (hu : Updated cfg I i J) : InstanceOk cfg J := by
  cases hu with
  | noteOn ch n v =>
    have hv : v.toNat ≠ 0 := fun e => by simp [Instr.wf, BitVec.eq_of_toNat_eq (y := 0#7) e] at hi
    exact h.noteOnAlloc hc (xnote_le _ _) (by omega) (by omega)
  | noteOff ch n v => exact h.releaseWhere rfl
  | noteOnV0 ch n => exact h.releaseWhere rfl
  | allNotesOff ch x => exact h.releaseWhere rfl
  | modWheel ch x => exact h.modWheel x.isLt
  | pitchBend ch b => exact h.bend hc b.isLt
  | setParam id v => exact h.setParam hc id.toNat (paramValue v)
  | record hrecord ha => exact h.emit _ ha
  | ignored i => exact h

theorem State.Inv.of_inst {s : State} {I : Instance} (hc : s.cfg.wf) (hs : s.inst = some I)
    (h : InstanceOk s.cfg I) : s.Inv :=
  ⟨hc, fun _ hJ => Option.some.inj (hs.symm.trans hJ) ▸ h⟩

/-- Every well-formed instruction keeps the machine's invariant. -/
theorem State.Inv.completed {s t : State} (h : s.Inv) {i : Instr} (hi : i.wf = true) (hd : Completed s i t) :
    t.Inv := by
  cases hd with
  | updated hs hu => exact .of_inst h.config rfl ((h.inst _ hs).updated h.config hi hu)
  | withoutInstance i hs => exact h
  | created c hs => exact .of_inst h.config rfl (.created h.config c)
  | createFailed c hs => exact ⟨h.config, h.inst⟩
  | destroyed => exact ⟨h.config, fun _ h => nomatch h⟩
  | silent f hs => exact ⟨h.config, h.inst⟩
  | rendered f hs => exact .of_inst h.config rfl ((h.inst _ hs).render s.cfg.fpb)
  | returned id => exact ⟨h.config, h.inst⟩

/-- Settles O18: a step holds the state or completes a decoded, hence well-formed instruction. -/
theorem invariantKeptByStep : Obligations.InvariantKeptByStep := by
  intro s t h hstep
  rcases step_cases s with ⟨-, e⟩ | ⟨d, rest, i, -, hd, e⟩ | ⟨d, rest, a, -, -, e⟩ <;> rw [e] at hstep
  · cases hstep
    exact h
  · have htake : (s.take d rest).Inv := ⟨h.config, h.inst⟩
    exact htake.completed (decode_wf hd) (completed_of_exec hstep)
  · cases hstep

end Sys2Proof.Machine
end

section
/-! PROOFS. What each instruction may write: the value GET_PARAM returns (O38), what a voice keeps (O41) and which
instructions write each part of the state (O40). -/

namespace Sys2Proof.Machine

/-! ### GET_PARAM -/

/-- Settles O38: by the id, from `Instance.getParam`. -/
theorem getParamReturnsField : Obligations.GetParamReturnsField := by
  intro s I hs
  have hget (id : BitVec 8) : exec (.getParam id) s = .next { s with ret := .param (I.getParam id.toNat) } := by
    rw [exec_getParam, hs]
    rfl
  simp only [hget]
  refine ⟨?_, fun id hid => ?_⟩
  · have hchip : chipCode I.chip = if I.chip = .nes then 0 else 1 := by cases I.chip <;> rfl
    have hmode : modeCode I.params.mode =
        if I.params.mode = .lead then 0 else if I.params.mode = .locked then 1 else 2 := by
      cases I.params.mode <;> rfl
    simp only [List.forall_mem_cons, ← hchip, ← hmode]
    exact ⟨rfl, rfl, rfl, rfl, rfl, rfl, rfl, rfl, rfl, rfl, rfl, rfl, rfl, rfl, rfl, rfl, rfl, rfl, rfl,
      List.forall_mem_nil _⟩
  · have hunknown : I.getParam id.toNat = none := by
      simp only [Instance.getParam]
      rw [if_neg (by omega), if_neg (by omega), if_neg (by omega)]
    rw [hunknown]

/-! ### SET_PARAM and the mod wheel, by what they write (R371, R365) -/

/-- All SET_PARAM can do: nothing, a change of chip, a preset, or one write to the parameter vector. -/
theorem setParam_cases (cfg : Config) (id : BitVec 8) (v : Int) (I : Instance) :
    I.setParam cfg id.toNat v = I ∨
    (id = 0 ∧ ∃ c, I.setParam cfg id.toNat v = { I.deactivateAll with chip := c, initPending := true }) ∨
    (id = 18 ∧ ∃ p P, I.setParam cfg id.toNat v = { I with presetId := p, params := P }) ∨
    (id ≠ 0 ∧ id.toNat ≤ 18 ∧ ∃ P, I.setParam cfg id.toNat v = { I with params := P }) := by
  unfold Instance.setParam
  split
  next h0 =>
    simp only [Instance.setChip]
    split
    · exact .inl rfl
    · exact .inr (.inl ⟨BitVec.eq_of_toNat_eq h0, _, rfl⟩)
  next h0 =>
    split
    next h18 =>
      simp only [Instance.setPreset]
      split
      · exact .inl rfl
      · split
        · exact .inl rfl
        · exact .inr (.inr (.inl ⟨BitVec.eq_of_toNat_eq h18, _, _, rfl⟩))
    next h18 =>
      split
      next h17 => exact .inr (.inr (.inr ⟨fun e => h0 (by rw [e]; rfl), by omega, _, rfl⟩))
      next => exact .inl rfl

theorem modWheel_eq (cfg : Config) (x : Nat) (I : Instance) :
    ∃ P, I.modWheel cfg x = { I with params := P } := by
  unfold Instance.modWheel
  split
  · exact ⟨I.params, rfl⟩
  · exact ⟨_, rfl⟩

/-! ### What a voice keeps (R55, R243 (c)) -/

/-- The captured rates and sustain level (R35). -/
def Envelope.captured (e : Envelope) : Rat × Rat × Rat × Rat := (e.aRate, e.dRate, e.rRate, e.sLevel)

/-- What VOICE_INIT alone writes of a voice. -/
def Voice.allocation (v : Voice) : Nat × Nat × Fin 4 × Nat × Rat × Rat × Rat × Rat :=
  (v.note, v.velocity, v.channel, v.age, v.env.captured)

theorem Envelope.captured_step (e : Envelope) : e.step.captured = e.captured := by
  cases hs : e.stage with
  | idle => rw [Envelope.step_idle hs]; rfl
  | sustain => rw [Envelope.step_sustain hs]
  | attack => rw [Envelope.step_attack hs]; unfold Envelope.attackStep; simp only; split <;> rfl
  | decay => rw [Envelope.step_decay hs]; unfold Envelope.decayStep; simp only; split <;> rfl
  | release => rw [Envelope.step_release hs]; unfold Envelope.releaseStep; simp only; split <;> rfl

theorem Envelope.captured_advance (n : Nat) (e : Envelope) : (e.advance n).captured = e.captured := by
  induction n generalizing e with
  | zero => rfl
  | succ n ih => rw [Envelope.advance_succ, ih, Envelope.captured_step]

theorem Envelope.captured_gateOff (e : Envelope) : e.gateOff.captured = e.captured := by
  rcases e.gateOff_cases with ⟨-, h⟩ | ⟨-, h⟩
  · rw [h]
  · rw [h]
    rfl

@[simp] theorem Voice.allocation_deactivate (v : Voice) : v.deactivate.allocation = v.allocation := rfl

@[simp] theorem Voice.allocation_release (v : Voice) : v.release.allocation = v.allocation := by
  simp [Voice.allocation, Envelope.captured_gateOff]

@[simp] theorem Voice.allocation_rendered (cfg : Config) (P : Params) (frames : Nat) (v : Voice) :
    (v.rendered cfg P frames).allocation = v.allocation := by
  rcases v.rendered_cases cfg P frames with ⟨-, e⟩ | ⟨-, -, e⟩ | ⟨-, -, e⟩ <;> rw [e] <;>
    simp [Voice.allocation, Envelope.captured_advance]

/-! ### What an instruction makes of a voice -/

theorem Envelope.level_gateOff (e : Envelope) : e.gateOff.level = e.level := by
  rcases e.gateOff_cases with ⟨-, h⟩ | ⟨-, h⟩ <;> rw [h]

/-- The instructions that release voices (R240, R241). -/
inductive IsNoteOff : Instr → Prop where
  | noteOff (ch : BitVec 4) (n v : BitVec 7) : IsNoteOff (.noteOff ch n v)
  | noteOnV0 (ch : BitVec 4) (n : BitVec 7) : IsNoteOff (.noteOnV0 ch n)
  | allNotesOff (ch : BitVec 4) (x : BitVec 7) : IsNoteOff (.ccAllNotesOff ch x)

/-- What an instruction on an instance with parameters `P` and age counter `a` makes of the voice of a slot. -/
inductive VoiceChange (cfg : Config) (P : Params) (a : Nat) : Instr → Voice → Voice → Prop where
  | kept (i : Instr) (v : Voice) : VoiceChange cfg P a i v v
  | started (ch : BitVec 4) (n x : BitVec 7) {note vel b : Nat} {new : Fin 4 → Prop} {v w : Voice}
      (h : Reallocated cfg P note vel new a b v w) : VoiceChange cfg P a (.noteOn ch n x) v w
  | released {i : Instr} (hi : IsNoteOff i) (v : Voice) : VoiceChange cfg P a i v v.release
  | dropped (x : BitVec 16) (v : Voice) : VoiceChange cfg P a (.setParam 0 x) v v.deactivate
  | rendered (f : BitVec 16) (v : Voice) : VoiceChange cfg P a (.render f) v (v.rendered cfg P cfg.fpb)

/-- A release of the voices that `p` holds of. -/
theorem VoiceChange.of_releaseWhere {cfg : Config} {P : Params} {a : Nat} {i : Instr} (hi : IsNoteOff i)
    {p : Voice → Bool} (hp : p Voice.absent = false) (I : Instance) (k : Nat) :
    VoiceChange cfg P a i (I.voice k) ((I.mapVoices fun v => if p v then v.release else v).voice k) := by
  rw [voice_mapVoices I (by simp [hp])]
  split
  · exact .released hi _
  · exact .kept i _

theorem Updated.voiceChange {cfg : Config} {I J : Instance} {i : Instr} (hu : Updated cfg I i J) (k : Nat) :
    VoiceChange cfg I.params I.ageCounter i (I.voice k) (J.voice k) := by
  cases hu with
  | noteOn ch n v =>
    obtain ⟨m, -, h⟩ := noteOnPart_noteOnAlloc cfg (xnote I.params n.toNat) v.toNat I
    exact .started ch n v (h.voice k)
  | noteOff ch n v => exact .of_releaseWhere (.noteOff ch n v) rfl I k
  | noteOnV0 ch n => exact .of_releaseWhere (.noteOnV0 ch n) rfl I k
  | allNotesOff ch x => exact .of_releaseWhere (.allNotesOff ch x) rfl I k
  | modWheel ch x =>
    obtain ⟨P, e⟩ := modWheel_eq cfg x.toNat I
    rw [e]
    exact .kept _ _
  | pitchBend ch b => exact .kept _ _
  | setParam id v =>
    rcases setParam_cases cfg id (paramValue v) I with e | ⟨rfl, c, e⟩ | ⟨-, p, P, e⟩ | ⟨-, -, P, e⟩ <;> rw [e]
    · exact .kept _ _
    · show VoiceChange cfg _ _ _ _ (I.deactivateAll.voice k)
      rw [voice_deactivateAll]
      exact .dropped v _
    · exact .kept _ _
    · exact .kept _ _
  | record hc ha => exact .kept _ _
  | ignored i => exact .kept _ _

/-- Between two instances an instruction that completes is an update or a block. -/
theorem Completed.updated_or_rendered {i : Instr} {s t : State} {I J : Instance} (hd : Completed s i t)
    (hs : s.inst = some I) (ht : t.inst = some J) :
    Updated s.cfg I i J ∨ ∃ f, i = .render f ∧ J = (renderBlock s.cfg s.cfg.fpb I).1 := by
  cases hd with
  | updated hs' hu =>
    obtain rfl := Option.some.inj (hs.symm.trans hs')
    obtain rfl := Option.some.inj ht
    exact .inl hu
  | rendered f hs' =>
    obtain rfl := Option.some.inj (hs.symm.trans hs')
    exact .inr ⟨f, rfl, (Option.some.inj ht).symm⟩
  | returned id =>
    obtain rfl := Option.some.inj (hs.symm.trans ht)
    exact .inl (.ignored _)
  | destroyed => cases ht
  | withoutInstance i hnull => cases hs.symm.trans hnull
  | created c hnull => cases hs.symm.trans hnull
  | createFailed c hnull => cases hs.symm.trans hnull
  | silent f hnull => cases hs.symm.trans hnull

theorem Completed.voiceChange {i : Instr} {s t : State} {I J : Instance} (hd : Completed s i t)
    (hs : s.inst = some I) (ht : t.inst = some J) (k : Nat) :
    VoiceChange s.cfg I.params I.ageCounter i (I.voice k) (J.voice k) := by
  rcases hd.updated_or_rendered hs ht with hu | ⟨f, rfl, rfl⟩
  · exact hu.voiceChange k
  · obtain ⟨-, -, -, -, -, -, -, hvoice, -⟩ := renderBlock_spec s.cfg s.cfg.fpb I
    rw [hvoice]
    exact .rendered f _

/-- Only a voice that a note-on starts gets another allocation. -/
theorem VoiceChange.allocation {cfg : Config} {P : Params} {a : Nat} {i : Instr} {v w : Voice}
    (h : VoiceChange cfg P a i v w) :
    w.allocation = v.allocation ∨ ((∃ ch n x, i = .noteOn ch n x) ∧ a < w.age ∧ w.active = true) := by
  cases h with
  | kept => exact .inl rfl
  | started ch n x h =>
    rcases h with rfl | rfl | ⟨c, age, -, hage, -, rfl⟩
    · exact .inl rfl
    · exact .inl rfl
    · exact .inr ⟨⟨ch, n, x, rfl⟩, hage, rfl⟩
  | released => exact .inl v.allocation_release
  | dropped => exact .inl rfl
  | rendered => exact .inl (v.allocation_rendered cfg P cfg.fpb)

/-- Settles O41, for each change of a voice. -/
theorem voiceKeepsItsAllocation : Obligations.VoiceKeepsItsAllocation := by
  intro i s t I J k h hs ht
  refine ((completed_of_exec h).voiceChange hs ht k).allocation.imp_left fun he => ?_
  simpa [Voice.allocation, Envelope.captured] using he

/-! ### Which instructions write each part of the state -/

/-- The fields of a voice that have no statement of their own in O41, and the instructions that write them. -/
structure VoiceFrame (i : Instr) (v w : Voice) : Prop where
  activated : v.active = false → w.active = true → ∃ ch n x, i = .noteOn ch n x
  deactivated : v.active = true → w.active = false →
    (∃ f, i = .render f) ∨ (∃ ch n x, i = .noteOn ch n x) ∨ (∃ ch n x, i = .noteOff ch n x) ∨
    (∃ ch n, i = .noteOnV0 ch n) ∨ (∃ ch x, i = .ccAllNotesOff ch x) ∨ ∃ x, i = .setParam 0 x
  triggered : v.triggered = false → w.triggered = true → ∃ f, i = .render f
  untriggered : v.triggered = true → w.triggered = false → ∃ ch n x, i = .noteOn ch n x
  level : w.env.level ≠ v.env.level → ∃ f, i = .render f
  stage : w.env.stage ≠ v.env.stage →
    (∃ f, i = .render f) ∨ (∃ ch n x, i = .noteOn ch n x) ∨ (∃ ch n x, i = .noteOff ch n x) ∨
    (∃ ch n, i = .noteOnV0 ch n) ∨ ∃ ch x, i = .ccAllNotesOff ch x
  penv : w.penv ≠ v.penv → (∃ f, i = .render f) ∨ ∃ ch n x, i = .noteOn ch n x

theorem VoiceFrame.refl (i : Instr) (v : Voice) : VoiceFrame i v v := by
  constructor <;> simp +contextual

theorem VoiceChange.frame {cfg : Config} {P : Params} {a : Nat} {i : Instr} {v w : Voice}
    (h : VoiceChange cfg P a i v w) : VoiceFrame i v w := by
  cases h with
  | kept => exact .refl _ _
  | started ch n x h =>
    rcases h with rfl | rfl | ⟨c, age, -, hage, -, rfl⟩
    · exact .refl _ _
    · constructor <;> simp +contextual
    · constructor <;> simp [startedVoice]
  | released hi =>
    cases hi <;> constructor <;> simp +contextual [Envelope.level_gateOff]
  | dropped x => constructor <;> simp +contextual
  | rendered f =>
    rcases v.rendered_cases cfg P cfg.fpb with ⟨-, e⟩ | ⟨hv, -, e⟩ | ⟨hv, -, e⟩ <;> rw [e]
    · exact .refl _ _
    · constructor <;> simp +contextual [hv]
    · constructor <;> simp [hv]

/-- The fields of an instance and the instructions that write them. -/
structure InstanceFrame (i : Instr) (I J : Instance) : Prop where
  core : (∀ f, i ≠ .render f) → J.lfoPhase = I.lfoPhase ∧ J.core.regs = I.core.regs ∧
    J.core.inner = I.core.inner ∧ J.core.cycles = I.core.cycles
  writes : (∀ f, i ≠ .render f) → recordChip i = none → J.writes = I.writes ∧ J.core.enqueued = I.core.enqueued
  chip : J.chip ≠ I.chip → ∃ v, i = .setParam 0 v
  presetId : J.presetId ≠ I.presetId → ∃ v, i = .setParam 18 v
  params : J.params ≠ I.params → (∃ id v, i = .setParam id v ∧ id ≠ 0 ∧ id.toNat ≤ 18) ∨ ∃ ch x, i = .ccModwheel ch x
  bend : J.bend ≠ I.bend → ∃ ch b, i = .pitchBend ch b
  ageMono : I.ageCounter ≤ J.ageCounter
  age : J.ageCounter ≠ I.ageCounter → ∃ ch n v, i = .noteOn ch n v
  initSet : I.initPending = false → J.initPending = true → ∃ v, i = .setParam 0 v
  initDone : I.initPending = true → J.initPending = false → ∃ f, i = .render f
  length : J.voices.length = I.voices.length

/-- An instruction that changes the pool's voices only. -/
theorem InstanceFrame.of_voices (i : Instr) {I : Instance} {vs : List Voice} (hlen : vs.length = I.voices.length) :
    InstanceFrame i I { I with voices := vs } := by
  constructor <;> simp +contextual [hlen]

theorem Updated.instanceFrame {cfg : Config} {I J : Instance} {i : Instr} (hu : Updated cfg I i J) :
    InstanceFrame i I J := by
  cases hu with
  | noteOn ch n v =>
    obtain ⟨m, -, h⟩ := noteOnPart_noteOnAlloc cfg (xnote I.params n.toNat) v.toNat I
    rw [h.frame]
    constructor <;> simp +contextual [h.length, h.age]
  | noteOff ch n v => exact .of_voices _ (length_noteOffRelease I _)
  | noteOnV0 ch n => exact .of_voices _ (length_noteOffRelease I _)
  | allNotesOff ch x => exact .of_voices _ (length_allVoicesOff I)
  | modWheel ch x =>
    obtain ⟨P, e⟩ := modWheel_eq cfg x.toNat I
    rw [e]
    constructor <;> simp +contextual
  | pitchBend ch b => constructor <;> simp +contextual
  | setParam id v =>
    rcases setParam_cases cfg id (paramValue v) I with e | ⟨rfl, c, e⟩ | ⟨rfl, p, P, e⟩ | ⟨h0, h18, P, e⟩ <;> rw [e]
    · exact .of_voices _ rfl
    · constructor <;> simp +contextual
    · constructor <;> simp +contextual
    · constructor
      case params => exact fun _ => .inl ⟨id, v, rfl, h0, h18⟩
      all_goals simp +contextual
  | record hc ha => constructor <;> simp +contextual [hc]
  | ignored i => exact .of_voices i rfl

theorem instanceFrame_render (cfg : Config) (f : BitVec 16) (I : Instance) :
    InstanceFrame (.render f) I (renderBlock cfg cfg.fpb I).1 := by
  obtain ⟨hchip, hparams, hpreset, hbend, hage, hinit, -⟩ := renderBlock_spec cfg cfg.fpb I
  constructor <;> simp [hchip, hparams, hpreset, hbend, hage, hinit]

theorem Completed.instanceFrame {i : Instr} {s t : State} {I J : Instance} (hd : Completed s i t)
    (hs : s.inst = some I) (ht : t.inst = some J) : InstanceFrame i I J := by
  rcases hd.updated_or_rendered hs ht with hu | ⟨f, rfl, rfl⟩
  · exact hu.instanceFrame
  · exact instanceFrame_render s.cfg f I

/-- The fields of the machine and the instructions that write them. -/
structure StateFrame (i : Instr) (s t : State) : Prop where
  cfg : t.cfg = s.cfg
  inbox : t.inbox = s.inbox
  allocOk : t.allocOk = s.allocOk
  ret : (∀ id, i ≠ .getParam id) → (∀ c, i ≠ .create c) → t.ret = s.ret
  out : (∀ f, i ≠ .render f) → t.out = s.out
  made : s.inst = none → t.inst ≠ none → ∃ c, i = .create c
  discarded : s.inst ≠ none → t.inst = none → i = .destroy

theorem Completed.stateFrame {i : Instr} {s t : State} (hd : Completed s i t) : StateFrame i s t := by
  cases hd with
  | updated hs hu =>
    exact ⟨rfl, rfl, rfl, fun _ _ => rfl, fun _ => rfl, fun hnull => (nomatch hs.symm.trans hnull),
      fun _ h => nomatch h⟩
  | withoutInstance i hs =>
    exact ⟨rfl, rfl, rfl, fun _ _ => rfl, fun _ => rfl, fun _ hne => absurd hs hne, fun hne => absurd hs hne⟩
  | created c hs =>
    exact ⟨rfl, rfl, rfl, fun _ h => absurd rfl (h c), fun _ => rfl, fun _ _ => ⟨c, rfl⟩, fun hne => absurd hs hne⟩
  | createFailed c hs =>
    exact ⟨rfl, rfl, rfl, fun _ h => absurd rfl (h c), fun _ => rfl, fun _ _ => ⟨c, rfl⟩, fun hne => absurd hs hne⟩
  | destroyed =>
    exact ⟨rfl, rfl, rfl, fun _ _ => rfl, fun _ => rfl, fun _ hne => absurd rfl hne, fun _ _ => rfl⟩
  | silent f hs =>
    exact ⟨rfl, rfl, rfl, fun _ _ => rfl, fun h => absurd rfl (h f), fun _ hne => absurd hs hne,
      fun hne => absurd hs hne⟩
  | rendered f hs =>
    exact ⟨rfl, rfl, rfl, fun _ _ => rfl, fun h => absurd rfl (h f), fun hnull => (nomatch hs.symm.trans hnull),
      fun _ h => nomatch h⟩
  | returned id =>
    exact ⟨rfl, rfl, rfl, fun h => absurd rfl (h id), fun _ => rfl, fun hnull hne => absurd hnull hne,
      fun hne hnull => absurd hnull hne⟩

/-- Settles O40, from the frames of the machine, of the instance and of each voice. -/
theorem onlyTheseInstructionsWrite : Obligations.OnlyTheseInstructionsWrite := by
  intro i s t h
  have hd := completed_of_exec h
  obtain ⟨hcfg, hinbox, halloc, hret, hout, hmade, hdiscarded⟩ := hd.stateFrame
  refine ⟨hcfg, hinbox, halloc, hret, hout, hmade, hdiscarded, fun I J hs ht => ?_⟩
  obtain ⟨hcore, hwrites, hchip, hpreset, hparams, hbend, hmono, hage, hset, hdone, hlen⟩ := hd.instanceFrame hs ht
  refine ⟨hcore, hwrites, hchip, hpreset, hparams, hbend, hmono, hage, hset, hdone, hlen, fun k => ?_⟩
  obtain ⟨hon, hoff, htrig, huntrig, hlevel, hstage, hpenv⟩ := (hd.voiceChange hs ht k).frame
  exact ⟨hon, hoff, htrig, huntrig, hlevel, hstage, hpenv⟩

end Sys2Proof.Machine
end

section
/-! PROOFS. The step that runs a delivery (O9), and the writes of a block: their fixed bits (O45), the trigger registers
among them (O46), and the chip registers after they are applied (O49). -/

namespace Sys2Proof.Machine

/-- Settles O9: of the three things a step can do (`step_cases`) only the second has a delivery that decodes. -/
theorem stepRunsDecodedInstruction : Obligations.StepRunsDecodedInstruction := by
  intro s d rest i hin hdec
  obtain ⟨hempty, -⟩ | ⟨d', rest', i', hin', hdec', hstep⟩ | ⟨d', rest', a, hin', hdec', -⟩ := step_cases s
  · cases hin.symm.trans hempty
  · cases hin.symm.trans hin'
    cases hdec.symm.trans hdec'
    exact hstep
  · cases hin.symm.trans hin'
    cases hdec.symm.trans hdec'

/-! ### The registers after a block -/

/-- A write list read back: the last write that names the address, or the value before. -/
theorem Memory.read?_apply (m : List Host.Cell) (ws : List WriteRecord) (a : Nat) :
    Memory.read? (Memory.apply m ws) a =
      ((ws.reverse.find? fun r => r.addr.toNat == a).map WriteRecord.value).or (Memory.read? m a) := by
  induction ws generalizing m with
  | nil => rfl
  | cons r rs ih =>
    rw [Memory.apply_cons, ih, Memory.read?_write, List.reverse_cons, List.find?_append]
    by_cases h : r.addr.toNat = a
    · cases rs.reverse.find? (fun r => r.addr.toNat == a) <;> simp [h]
    · simp [h, Ne.symm h]

/-- Settles O49: a block applies what was handed to the core before it and then its own write list
(`renderBlock_spec`), and a write list reads back as its last writes. -/
theorem renderAppliesEveryWrite : Obligations.RenderAppliesEveryWrite := by
  intro s I f hs hf
  refine ⟨_, _, exec_render hs hf, fun a => ?_⟩
  obtain ⟨-, -, -, -, -, -, -, -, hwrites, -, hregs, -⟩ := renderBlock_spec s.cfg s.cfg.fpb I
  rw [hregs, hwrites, Memory.read?_apply]
  generalize (List.find? _ _ : Option WriteRecord) = last
  cases last with
  | none => rfl
  | some r => rfl

/-! ### The writes of a block, by where they come from -/

/-- The instance a RENDER that completes leaves. -/
theorem inst_of_render {s t : State} {I J : Instance} {f : BitVec 16} (hs : s.inst = some I)
    (h : exec (.render f) s = .next t) (ht : t.inst = some J) : J = (renderBlock s.cfg s.cfg.fpb I).1 := by
  cases (exec_render hs (exec_render_next hs h)).symm.trans h
  exact (Option.some.inj ht).symm

theorem mem_retireWrites {I J : Instance} {w : Addr × Byte} (h : w ∈ retireWrites I J) :
    ∃ c, w ∈ silenceWrites I.chip I.params c := by
  obtain ⟨k, -, hk⟩ := List.mem_flatMap.1 h
  split at hk
  · exact ⟨_, hk⟩
  · cases hk

theorem mem_idleWrites {cfg : Config} {I : Instance} {w : Addr × Byte} (h : w ∈ idleWrites cfg I) :
    ∃ c, w ∈ silenceWrites I.chip I.params c := by
  obtain ⟨c, -, hc⟩ := List.mem_flatMap.1 h
  split at hc
  · cases hc
  · exact ⟨c, hc⟩

theorem mem_encodeWrites {cfg : Config} {level : Nat → Rat} {I : Instance} {w : Addr × Byte}
    (h : w ∈ encodeWrites cfg level I) : ∃ k, w ∈ voiceWrites cfg I (level k) (I.voice k) := by
  obtain ⟨k, -, hk⟩ := List.mem_flatMap.1 h
  split at hk
  · exact ⟨k, hk⟩
  · cases hk

/-- A write of a block is one of the chip's init writes, of a channel's silence or of a voice's encoder. -/
theorem mem_blockWrites {cfg : Config} {frames : Nat} {I : Instance} {w : Addr × Byte}
    (h : w ∈ blockWrites cfg frames I) :
    w ∈ initWrites I.chip ∨ (∃ c, w ∈ silenceWrites I.chip I.params c) ∨
      ∃ k level, w ∈ voiceWrites cfg (I.advanced frames) level ((I.advanced frames).voice k) := by
  simp only [blockWrites, List.mem_append] at h
  obtain ((hinit | hretire) | hencode) | hidle := h
  · unfold prefixWrites at hinit
    split at hinit
    · exact .inl hinit
    · cases hinit
  · exact .inr (.inl (mem_retireWrites hretire))
  · obtain ⟨k, hk⟩ := mem_encodeWrites hencode
    exact .inr (.inr ⟨k, _, hk⟩)
  · obtain ⟨c, hc⟩ := mem_idleWrites hidle
    exact .inr (.inl ⟨c, hc⟩)

/-! ### The bits the rules fix (R124, R125) -/

theorem qvol_le (l : Rat) (vol vel : Nat) : qvol l vol vel ≤ 15 := by
  unfold qvol clamp
  omega

theorem highBits_lt (p : Nat) : highBits p < 8 := Nat.mod_lt _ (by decide)

/-- Length halt and constant volume stand in every pulse control byte. -/
theorem nesPulseCtrl_fixed {P : Params} {q : Nat} (hd : P.duty ≤ 3) (hq : q ≤ 15) :
    (nesPulseCtrl P q).extractLsb' 4 2 = 3 :=
  (by decide : ∀ d ≤ 3, ∀ q ≤ 15, (byte ((d <<< 6) ||| 0x30 ||| q)).extractLsb' 4 2 = 3) _ hd _ hq

/-- The length index is 1. -/
theorem nesLengthHigh_fixed (p : Nat) : (nesLengthHigh p).extractLsb' 3 5 = 1 :=
  (by decide : ∀ h < 8, (byte (0x08 ||| h)).extractLsb' 3 5 = 1) _ (highBits_lt p)

theorem nesNoiseCtrl_fixed {q : Nat} (hq : q ≤ 15) : (nesNoiseCtrl q).extractLsb' 4 4 = 3 :=
  (by decide : ∀ q ≤ 15, (byte (0x30 ||| q)).extractLsb' 4 4 = 3) _ hq

theorem nesNoiseIndex_lt {cfg : Config} (hc : ∀ x ∈ cfg.nesNoise, x < 16) (n : Nat) : nesNoiseIndex cfg n < 16 := by
  unfold nesNoiseIndex
  rw [List.getD_eq_getElem?_getD]
  cases h : cfg.nesNoise[n]? with
  | none => decide
  | some x => exact hc x (List.mem_of_getElem? h)

theorem nesNoiseMode_fixed {cfg : Config} {P : Params} (hc : ∀ x ∈ cfg.nesNoise, x < 16) (hm : P.noiseMode ≤ 1)
    (n : Nat) : (nesNoiseMode cfg P n).extractLsb' 4 3 = 0 :=
  (by decide : ∀ m ≤ 1, ∀ x < 16, (byte ((m <<< 7) ||| x)).extractLsb' 4 3 = 0) _ hm _ (nesNoiseIndex_lt hc n)

/-- A field shifted up leaves zeros below it: the duty, the volume and the wave level of the Game Boy. -/
theorem byte_shiftLeft_low (n k : Nat) : (byte (n <<< k)).extractLsb' 0 k = 0 := by
  apply BitVec.eq_of_getLsbD_eq
  intro i hi
  simp [byte, BitVec.getLsbD_extractLsb', BitVec.getLsbD_ofNat, Nat.testBit_shiftLeft, Nat.not_le.2 hi]

theorem gbSweep_fixed (x : Nat) : (byte (x &&& 0x7F)).extractLsb' 7 1 = 0 := by
  have hx : x &&& 0x7F < 128 := Nat.lt_of_le_of_lt Nat.and_le_right (by decide)
  exact (by decide : ∀ y < 128, (byte y).extractLsb' 7 1 = 0) _ hx

/-- The trigger bit is set and the length counter off. -/
theorem gbTriggerHigh_fixed (x : Nat) : (gbTriggerHigh x).extractLsb' 3 5 = 16 :=
  (by decide : ∀ h < 8, (byte (0x80 ||| h)).extractLsb' 3 5 = 16) _ (highBits_lt x)

theorem gbWaveLevel_top (q : Nat) : (gbWaveLevel q).extractLsb' 7 1 = 0 := by
  have hcode : waveCode q ≤ 3 := by
    unfold waveCode
    split_ifs <;> decide
  exact (by decide : ∀ y ≤ 3, (byte (y <<< 5)).extractLsb' 7 1 = 0) _ hcode

/-! ### The form of every write (R272..R280, R302..R312) -/

/-- Every write of a list goes to a register of the chip and has the bits fixed there. -/
def InForm (chip : Chip) (ws : List (Addr × Byte)) : Prop := ∀ w ∈ ws, writeInForm chip w.1 w.2 = true

theorem inForm_nil (chip : Chip) : InForm chip [] := List.forall_mem_nil _

/-- One write more, by its row of the table: the row is the chip's and the value has the row's fixed bits. -/
theorem inForm_cons {chip : Chip} {a : Addr} {v : Byte} {ws : List (Addr × Byte)} {i : Instr}
    (hrow : recordRow a.toNat v = some i) (hchip : recordChip i = some chip) (hform : recordForm i = true)
    (hws : InForm chip ws) : InForm chip ((a, v) :: ws) := by
  refine List.forall_mem_cons.2 ⟨?_, hws⟩
  simp only [writeInForm, hrow, hchip, hform, beq_self_eq_true, Bool.and_true]

theorem inForm_append {chip : Chip} {ws xs : List (Addr × Byte)} (hw : InForm chip ws) (hx : InForm chip xs) :
    InForm chip (ws ++ xs) := List.forall_mem_append.2 ⟨hw, hx⟩

theorem inForm_init (chip : Chip) : InForm chip (initWrites chip) := by
  cases chip <;> exact List.all_eq_true.1 rfl

theorem inForm_silence (chip : Chip) {P : Params} (hd : P.duty ≤ 3) (c : Fin 4) :
    InForm chip (silenceWrites chip P c) := by
  have hctrl := beq_iff_eq.2 (nesPulseCtrl_fixed hd (Nat.zero_le 15))
  cases chip with
  | nes =>
    fin_cases c
    · exact inForm_cons rfl rfl hctrl (inForm_nil _)
    · exact inForm_cons rfl rfl hctrl (inForm_nil _)
    · exact inForm_cons rfl rfl rfl (inForm_nil _)
    · exact inForm_cons rfl rfl rfl (inForm_nil _)
  | gb => fin_cases c <;> exact inForm_cons rfl rfl rfl (inForm_nil _)

theorem inForm_encNesPulse (cfg : Config) {P : Params} {q : Nat} (hd : P.duty ≤ 3) (hq : q ≤ 15) {c : Fin 4}
    (hc : c = 0 ∨ c = 1) (f : Rat) (trig : Bool) : InForm .nes (encNesPulse cfg P c f q trig) := by
  have hctrl := beq_iff_eq.2 (nesPulseCtrl_fixed hd hq)
  have hhigh := beq_iff_eq.2 (nesLengthHigh_fixed (pulsePeriod cfg f))
  cases trig with
  | true =>
    obtain rfl | rfl := hc <;>
      exact inForm_cons rfl rfl hctrl (inForm_cons rfl rfl rfl (inForm_cons rfl rfl rfl
        (inForm_cons rfl rfl hhigh (inForm_nil _))))
  | false => obtain rfl | rfl := hc <;> exact inForm_cons rfl rfl hctrl (inForm_cons rfl rfl rfl (inForm_nil _))

theorem inForm_encNesTri (cfg : Config) (f : Rat) (trig : Bool) : InForm .nes (encNesTri cfg f trig) := by
  have hhigh := beq_iff_eq.2 (nesLengthHigh_fixed (triPeriod cfg f))
  cases trig with
  | true => exact inForm_cons rfl rfl rfl (inForm_cons rfl rfl rfl (inForm_cons rfl rfl hhigh (inForm_nil _)))
  | false => exact inForm_cons rfl rfl rfl (inForm_nil _)

theorem inForm_encNesNoise {cfg : Config} {P : Params} {q : Nat} (hnoise : ∀ x ∈ cfg.nesNoise, x < 16)
    (hm : P.noiseMode ≤ 1) (hq : q ≤ 15) (n : Nat) (trig : Bool) : InForm .nes (encNesNoise cfg P n q trig) := by
  have hctrl := beq_iff_eq.2 (nesNoiseCtrl_fixed hq)
  have hmode := beq_iff_eq.2 (nesNoiseMode_fixed hnoise hm n)
  cases trig with
  | true => exact inForm_cons rfl rfl hctrl (inForm_cons rfl rfl hmode (inForm_cons rfl rfl rfl (inForm_nil _)))
  | false => exact inForm_cons rfl rfl hctrl (inForm_cons rfl rfl hmode (inForm_nil _))

theorem inForm_encNes {cfg : Config} {P : Params} {q : Nat} (hc : cfg.wf) (hP : ParamsOk cfg P) (hq : q ≤ 15)
    (v : Voice) (f : Rat) (trig : Bool) : InForm .nes (encNes cfg P v f q trig) := by
  obtain ⟨-, -, -, -, -, -, -, -, -, -, -, -, -, -, hnoise, -⟩ := hc
  unfold encNes
  split
  · exact inForm_encNesPulse cfg hP.duty hq (.inl rfl) f trig
  · exact inForm_encNesPulse cfg hP.duty hq (.inr rfl) f trig
  · exact inForm_encNesTri cfg f trig
  · exact inForm_encNesNoise hnoise hP.noiseMode hq v.note trig

theorem inForm_encGbSquare (cfg : Config) (P : Params) {c : Fin 4} (hc : c = 0 ∨ c = 1) (f : Rat) (q : Nat)
    (trig : Bool) : InForm .gb (encGbSquare cfg P c f q trig) := by
  have hduty := beq_iff_eq.2 (byte_shiftLeft_low P.duty 6)
  have hvolume := beq_iff_eq.2 (byte_shiftLeft_low q 4)
  have hhigh := beq_iff_eq.2 (gbTriggerHigh_fixed (sqFreq cfg f))
  cases trig with
  | true =>
    refine inForm_append ?_ ?_
    · split
      · exact inForm_cons rfl rfl (beq_iff_eq.2 (gbSweep_fixed _)) (inForm_nil _)
      · exact inForm_nil _
    · obtain rfl | rfl := hc <;>
        exact inForm_cons rfl rfl hduty (inForm_cons rfl rfl hvolume (inForm_cons rfl rfl rfl
          (inForm_cons rfl rfl hhigh (inForm_nil _))))
  | false => obtain rfl | rfl := hc <;> exact inForm_cons rfl rfl hvolume (inForm_cons rfl rfl rfl (inForm_nil _))

/-- The wave RAM has no fixed bits. -/
theorem inForm_waveRam (table : Vector Byte 16) : InForm .gb (waveRamWrites table) :=
  List.all_eq_true.1 rfl

theorem inForm_encGbWave (cfg : Config) (P : Params) (f : Rat) (q : Nat) (trig : Bool) :
    InForm .gb (encGbWave cfg P f q trig) := by
  have hlevel := Bool.and_eq_true_iff.2
    ⟨beq_iff_eq.2 (gbWaveLevel_top q), beq_iff_eq.2 (byte_shiftLeft_low (waveCode q) 5)⟩
  have hhigh := beq_iff_eq.2 (gbTriggerHigh_fixed (waveFreq cfg f))
  cases trig with
  | true =>
    exact inForm_append (inForm_append (inForm_cons rfl rfl rfl (inForm_nil _)) (inForm_waveRam _))
      (inForm_cons rfl rfl rfl (inForm_cons rfl rfl rfl (inForm_cons rfl rfl hlevel (inForm_cons rfl rfl rfl
        (inForm_cons rfl rfl hhigh (inForm_nil _))))))
  | false => exact inForm_cons rfl rfl hlevel (inForm_cons rfl rfl rfl (inForm_nil _))

theorem inForm_encGbNoise (cfg : Config) (P : Params) (n q : Nat) (trig : Bool) :
    InForm .gb (encGbNoise cfg P n q trig) := by
  have hvolume := beq_iff_eq.2 (byte_shiftLeft_low q 4)
  cases trig with
  | true =>
    exact inForm_cons rfl rfl rfl (inForm_cons rfl rfl hvolume (inForm_cons rfl rfl rfl
      (inForm_cons rfl rfl rfl (inForm_nil _))))
  | false => exact inForm_cons rfl rfl hvolume (inForm_cons rfl rfl rfl (inForm_nil _))

theorem inForm_encGb (cfg : Config) (P : Params) (v : Voice) (f : Rat) (q : Nat) (trig : Bool) :
    InForm .gb (encGb cfg P v f q trig) := by
  unfold encGb
  split
  · exact inForm_encGbSquare cfg P (.inl rfl) f q trig
  · exact inForm_encGbSquare cfg P (.inr rfl) f q trig
  · exact inForm_encGbWave cfg P f q trig
  · exact inForm_encGbNoise cfg P v.note q trig

theorem inForm_voiceWrites {cfg : Config} {I : Instance} (hc : cfg.wf) (hP : ParamsOk cfg I.params) (level : Rat)
    (v : Voice) : InForm I.chip (voiceWrites cfg I level v) := by
  unfold voiceWrites
  cases I.chip with
  | nes => exact inForm_encNes hc hP (qvol_le _ _ _) v _ _
  | gb => exact inForm_encGb cfg I.params v _ _ _

theorem inForm_blockWrites {cfg : Config} {I : Instance} (hc : cfg.wf) (hP : ParamsOk cfg I.params) (frames : Nat) :
    InForm I.chip (blockWrites cfg frames I) := by
  intro w hw
  obtain hinit | ⟨c, hsilence⟩ | ⟨k, level, hvoice⟩ := mem_blockWrites hw
  · exact inForm_init _ w hinit
  · exact inForm_silence _ hP.duty c w hsilence
  · exact inForm_voiceWrites (I := I.advanced frames) hc hP level _ w hvoice

/-- Settles O45: the write list is `blockWrites` with its times, each of them an init write, a silence or from an
encoder, and each of those is in form. -/
theorem renderWritesInForm : Obligations.RenderWritesInForm := by
  intro s t I J f hinv hs h ht r hr
  obtain ⟨-, -, -, -, -, -, -, -, hwrites, -⟩ := renderBlock_spec s.cfg s.cfg.fpb I
  rw [inst_of_render hs h ht, hwrites] at hr
  exact inForm_blockWrites hinv.config (hinv.inst I hs).params s.cfg.fpb _ (mem_stamp hr)

/-! ### The trigger registers (R85, R450) -/

/-- The addresses an encoder writes for a channel, in list order, in a block that triggers and in a later one. -/
def encoderAddresses : Chip → Fin 4 → Bool → List Addr
  | .nes, 0, true => [0x4000, 0x4001, 0x4002, 0x4003]
  | .nes, 0, false => [0x4000, 0x4002]
  | .nes, 1, true => [0x4004, 0x4005, 0x4006, 0x4007]
  | .nes, 1, false => [0x4004, 0x4006]
  | .nes, 2, true => [0x4008, 0x400A, 0x400B]
  | .nes, 2, false => [0x400A]
  | .nes, 3, true => [0x400C, 0x400E, 0x400F]
  | .nes, 3, false => [0x400C, 0x400E]
  | .gb, 0, true => [0xFF10, 0xFF11, 0xFF12, 0xFF13, 0xFF14]
  | .gb, 0, false => [0xFF12, 0xFF13]
  | .gb, 1, true => [0xFF16, 0xFF17, 0xFF18, 0xFF19]
  | .gb, 1, false => [0xFF17, 0xFF18]
  | .gb, 2, true => [0xFF1A, 0xFF30, 0xFF31, 0xFF32, 0xFF33, 0xFF34, 0xFF35, 0xFF36, 0xFF37, 0xFF38, 0xFF39, 0xFF3A,
      0xFF3B, 0xFF3C, 0xFF3D, 0xFF3E, 0xFF3F, 0xFF1A, 0xFF1B, 0xFF1C, 0xFF1D, 0xFF1E]
  | .gb, 2, false => [0xFF1C, 0xFF1D]
  | .gb, 3, true => [0xFF20, 0xFF21, 0xFF22, 0xFF23]
  | .gb, 3, false => [0xFF21, 0xFF22]

theorem addresses_voiceWrites (cfg : Config) (I : Instance) (level : Rat) (v : Voice) :
    (voiceWrites cfg I level v).map Prod.fst = encoderAddresses I.chip v.channel (!v.triggered) := by
  unfold voiceWrites
  generalize (!v.triggered) = trig
  cases I.chip with
  | nes =>
    simp only [encNes]
    split <;> rename_i hc <;> rw [hc] <;> cases trig <;> rfl
  | gb =>
    simp only [encGb]
    split <;> rename_i hc <;> rw [hc] <;> cases trig <;> rfl

/-- The register a channel's silence writes (R279, R311). -/
def silenceRegister : Chip → Fin 4 → Addr
  | .nes, 0 => 0x4000
  | .nes, 1 => 0x4004
  | .nes, 2 => 0x4008
  | .nes, 3 => 0x400C
  | .gb, 0 => 0xFF12
  | .gb, 1 => 0xFF17
  | .gb, 2 => 0xFF1A
  | .gb, 3 => 0xFF21

theorem addresses_silenceWrites (chip : Chip) (P : Params) (c : Fin 4) :
    (silenceWrites chip P c).map Prod.fst = [silenceRegister chip c] := by
  cases chip <;> fin_cases c <;> rfl

theorem trigger_not_mem_silence (chip : Chip) (P : Params) (c d : Fin 4) :
    triggerRegister chip c ∉ (silenceWrites chip P d).map Prod.fst := by
  rw [addresses_silenceWrites, List.mem_singleton]
  revert c d
  cases chip <;> decide

/-- No list of silences names a trigger register. -/
theorem trigger_not_mem_silences {chip : Chip} {P : Params} {ws : List (Addr × Byte)}
    (hws : ∀ w ∈ ws, ∃ d, w ∈ silenceWrites chip P d) (c : Fin 4) : triggerRegister chip c ∉ ws.map Prod.fst := by
  intro hmem
  obtain ⟨w, hw, hwc⟩ := List.mem_map.1 hmem
  obtain ⟨d, hd⟩ := hws w hw
  exact trigger_not_mem_silence chip P c d (hwc ▸ List.mem_map_of_mem hd)

theorem trigger_not_mem_init (chip : Chip) (c : Fin 4) :
    triggerRegister chip c ∉ (initWrites chip).map Prod.fst := by
  revert c
  cases chip <;> decide

/-- An encoder writes the trigger register of its own channel alone: once in the block that triggers, and not in a
later one. -/
theorem count_trigger_encoderAddresses (chip : Chip) (c d : Fin 4) (trig : Bool) :
    (encoderAddresses chip d trig).count (triggerRegister chip c) = if d = c ∧ trig = true then 1 else 0 := by
  revert c d trig
  cases chip <;> decide

@[simp] theorem channel_advance (frames : Nat) (v : Voice) : (v.advance frames).channel = v.channel := by
  unfold Voice.advance
  split <;> rfl

@[simp] theorem triggered_advance (frames : Nat) (v : Voice) : (v.advance frames).triggered = v.triggered := by
  unfold Voice.advance
  split <;> rfl

/-- The voice of slot k is active and its encoder is to trigger channel c (R333). -/
def Instance.triggers (I : Instance) (c : Fin 4) (k : Nat) : Bool :=
  (I.voice k).active && ((I.voice k).channel == c && !(I.voice k).triggered)

/-- Of the slots that survive step 2, those whose encoder triggers the channel. -/
theorem triggers_advanced (cfg : Config) (I : Instance) (c : Fin 4) (k : Nat) :
    (I.advanced cfg.fpb).triggers c k = true ↔
      Survives cfg I k ∧ (I.voice k).channel = c ∧ (I.voice k).triggered = false := by
  simp only [Instance.triggers, Bool.and_eq_true, beq_iff_eq, Bool.not_eq_true']
  exact and_congr (survives_iff cfg I k) (by simp)

/-- The encoder writes name a channel's trigger register once for each voice that triggers it. -/
theorem count_trigger_encodeWrites (cfg : Config) (level : Nat → Rat) (I : Instance) (c : Fin 4) :
    ((encodeWrites cfg level I).map Prod.fst).count (triggerRegister I.chip c) = I.slots.countP (I.triggers c) := by
  unfold encodeWrites
  induction I.slots with
  | nil => rfl
  | cons k ks ih =>
    rw [List.flatMap_cons, List.map_append, List.count_append, ih, List.countP_cons, Nat.add_comm]
    congr 1
    by_cases hk : (I.voice k).active = true
    · simp [hk, Instance.triggers, addresses_voiceWrites, count_trigger_encoderAddresses]
    · simp [hk, Instance.triggers]

/-- The init writes and the silences of a block name no trigger register, so only its encoders count. -/
theorem count_trigger_blockWrites (cfg : Config) (I : Instance) (c : Fin 4) :
    ((blockWrites cfg cfg.fpb I).map Prod.fst).count (triggerRegister I.chip c) =
      I.slots.countP ((I.advanced cfg.fpb).triggers c) := by
  have hencode := count_trigger_encodeWrites cfg (fun k => (I.voice k).env.level) (I.advanced cfg.fpb) c
  rw [slots_congr (length_advanced cfg.fpb I), chip_advanced] at hencode
  have hinit : triggerRegister I.chip c ∉ (prefixWrites I).map Prod.fst := by
    unfold prefixWrites
    split
    · exact trigger_not_mem_init _ _
    · exact List.not_mem_nil
  have hretire : triggerRegister I.chip c ∉ (retireWrites I (I.advanced cfg.fpb)).map Prod.fst :=
    trigger_not_mem_silences (fun _ => mem_retireWrites) c
  have hidle : triggerRegister I.chip c ∉ (idleWrites cfg (I.advanced cfg.fpb)).map Prod.fst :=
    trigger_not_mem_silences (fun _ => mem_idleWrites) c
  simp only [blockWrites, List.map_append, List.count_append, List.count_eq_zero_of_not_mem hinit,
    List.count_eq_zero_of_not_mem hretire, List.count_eq_zero_of_not_mem hidle, hencode, Nat.zero_add, Nat.add_zero]

/-- The records of a stamped list that go to an address. -/
theorem length_filter_stamp (cfg : Config) (n : Nat) (ws : List (Addr × Byte)) (a : Addr) :
    ((stamp cfg n ws).filter fun r => r.addr == a).length = (ws.map Prod.fst).count a := by
  induction ws generalizing n with
  | nil => rfl
  | cons w ws ih =>
    rw [stamp, List.map_cons, List.count_cons, ← ih (n + 1), List.filter_cons]
    split <;> simp [*]

/-- A property that holds of one slot alone is counted once. -/
theorem countP_slots_eq_one {I : Instance} {p : Nat → Bool} {k : Nat} (hk : k ∈ I.slots)
    (hp : ∀ j, p j = true ↔ j = k) : I.slots.countP p = 1 := by
  have hkeq : p = (· == k) := by
    funext j
    rw [Bool.eq_iff_iff, hp, beq_iff_eq]
  rw [hkeq]
  exact List.count_eq_one_of_mem List.nodup_range hk

/-- After a block every active voice is triggered (R333). -/
theorem triggered_rendered {cfg : Config} {P : Params} {frames : Nat} {v : Voice}
    (h : (v.rendered cfg P frames).active = true) : (v.rendered cfg P frames).triggered = true := by
  obtain ⟨hv, e⟩ | ⟨-, -, e⟩ | ⟨-, -, e⟩ := v.rendered_cases cfg P frames
  · rw [e, hv] at h
    cases h
  · rw [e] at h
    cases h
  · rw [e]

/-- Settles O46: the writes to the trigger register are counted by the voices that trigger the channel
(`count_trigger_blockWrites`), and no two active voices have one channel (R66 (d)). -/
theorem triggerWrittenOnce : Obligations.TriggerWrittenOnce := by
  intro s t I J f hinv hs h ht
  obtain rfl := inst_of_render hs h ht
  obtain ⟨-, -, -, -, -, -, -, hvoice, hwrites, -⟩ := renderBlock_spec s.cfg s.cfg.fpb I
  refine ⟨fun k hk => ?_, fun c => ?_⟩
  · rw [hvoice] at hk ⊢
    exact triggered_rendered hk
  rw [hwrites, length_filter_stamp, count_trigger_blockWrites]
  refine ⟨fun ⟨k, hk⟩ => ?_, fun hnone => ?_⟩
  · have halone : ∀ j, (I.advanced s.cfg.fpb).triggers c j = true ↔ j = k := fun j => by
      refine ⟨fun hj => ?_, fun hj => hj ▸ (triggers_advanced s.cfg I c k).2 hk⟩
      obtain ⟨hlive, hchannel, -⟩ := (triggers_advanced s.cfg I c j).1 hj
      exact (hinv.inst I hs).channels j k hlive.1 hk.1.1 (hchannel.trans hk.2.1.symm)
    exact countP_slots_eq_one (mem_slots.2 (active_lt hk.1.1)) halone
  · exact List.countP_eq_zero.2 fun k _ hk => hnone ⟨k, (triggers_advanced s.cfg I c k).1 hk⟩

end Sys2Proof.Machine
end

section
/-! PROOFS. The decoder and the encoder are inverse to each other (O11, O12); from that, the RESERVED words (O8), the
MIDI words (O13), the host calls (O14) and the words written out (O16), and that ignored messages change nothing (O32).
Fields and words are compared as numbers. -/

namespace Sys2Proof

/-! ### Bit strings as numbers -/

theorem toNat_join {m n : Nat} (x : BitVec m) (y : BitVec n) : (x ++ y).toNat = x.toNat * 2 ^ n + y.toNat := by
  rw [BitVec.toNat_append, ← Nat.shiftLeft_add_eq_or_of_lt y.isLt, Nat.shiftLeft_eq]

theorem toNat_field {n : Nat} (x : BitVec n) (start len : Nat) :
    (x.extractLsb' start len).toNat = x.toNat / 2 ^ start % 2 ^ len := by
  rw [BitVec.extractLsb'_toNat, Nat.shiftRight_eq_div_pow]

theorem field_eq_iff {n start len : Nat} {x : BitVec n} {v : BitVec len} :
    x.extractLsb' start len = v ↔ x.toNat / 2 ^ start % 2 ^ len = v.toNat := by
  rw [← BitVec.toNat_inj, toNat_field]

theorem ofNat_ne_ofNat {m k l : Nat} (hk : k < 2 ^ m) (hl : l < 2 ^ m) (h : k ≠ l) :
    BitVec.ofNat m k ≠ BitVec.ofNat m l := by
  rwa [ne_eq, ← BitVec.toNat_inj, BitVec.toNat_ofNat, BitVec.toNat_ofNat, Nat.mod_eq_of_lt hk, Nat.mod_eq_of_lt hl]

theorem command_eq_of_toNat {v w : Word} (h : v.toNat = w.toNat) : Packet.command v = .command w :=
  congrArg Packet.command (BitVec.eq_of_toNat_eq h)

/-- A pattern is its address and its value put together (R123). -/
theorem record_fields (r : Record) : r.extractLsb' 8 16 ++ r.extractLsb' 0 8 = r := by
  apply BitVec.eq_of_toNat_eq
  simp only [toNat_join, toNat_field]
  omega

theorem midiWord_eq_ofNat (s a b : Byte) :
    midiWord s a b = BitVec.ofNat 32 (s.toNat * 65536 + a.toNat * 256 + b.toNat) := by
  apply BitVec.eq_of_toNat_eq
  simp only [midiWord, toNat_join, BitVec.toNat_ofNat]
  omega

/-- A word of kind 0x00 is the MIDI word of its three other bytes (R110). -/
theorem midiWord_fields {w : Word} (h : w.extractLsb' 24 8 = 0) :
    midiWord (w.extractLsb' 16 8) (w.extractLsb' 8 8) (w.extractLsb' 0 8) = w := by
  simp only [field_eq_iff, BitVec.ofNat_eq_ofNat, BitVec.toNat_ofNat] at h
  apply BitVec.eq_of_toNat_eq
  simp only [midiWord, toNat_join, toNat_field, BitVec.toNat_ofNat]
  omega

/-- The three fields of a host call's word (R110). -/
theorem hostWord_fields (kind id : Byte) (v : BitVec 16) :
    (kind ++ id ++ v : Word).extractLsb' 24 8 = kind ∧ (kind ++ id ++ v : Word).extractLsb' 16 8 = id ∧
    (kind ++ id ++ v : Word).extractLsb' 0 16 = v := by
  refine ⟨field_eq_iff.2 ?_, field_eq_iff.2 ?_, field_eq_iff.2 ?_⟩ <;> simp only [toNat_join] <;> omega

/-! ### Reserved words (R111) -/

/-- `reservedWord` in numbers. -/
theorem reservedWord_iff (w : Word) : reservedWord w = true ↔
    (6 ≤ w.toNat / 2 ^ 24 ∨ (w.toNat / 2 ^ 24 = 1 ∧ w.toNat % 2 ^ 24 / 2 ≠ 0) ∨
      (w.toNat / 2 ^ 24 = 2 ∧ w.toNat % 2 ^ 24 ≠ 0) ∨ (w.toNat / 2 ^ 24 = 3 ∧ w.toNat % 2 ^ 24 / 2 ^ 16 ≠ 0) ∨
      (w.toNat / 2 ^ 24 = 5 ∧ w.toNat % 2 ^ 16 ≠ 0)) := by
  simp only [reservedWord, Bool.or_eq_true, Bool.and_eq_true, decide_eq_true_eq, beq_iff_eq, bne_iff_ne, ne_eq,
    field_eq_iff, toNat_field, BitVec.ofNat_eq_ofNat, BitVec.toNat_ofNat]
  omega

/-- No MIDI word is reserved. -/
theorem kind_ne_zero_of_reservedWord {w : Word} (h : reservedWord w = true) : w.extractLsb' 24 8 ≠ 0 := by
  rw [reservedWord_iff] at h
  simp only [ne_eq, field_eq_iff, BitVec.ofNat_eq_ofNat, BitVec.toNat_ofNat]
  omega

theorem decode_reserved {w : Word} (h : reservedWord w = true) : decode (.command w) = .ok (.reserved w) := by
  simp only [decode, decodeCommand, kind_ne_zero_of_reservedWord h, h, if_true, if_false]

/-- Settles O8: a decoded instruction is well formed (`decode_wf`), so RESERVED is decoded only from the words of R111,
and from each of them. -/
theorem reservedWordsRefused : Obligations.ReservedWordsRefused := fun w =>
  ⟨⟨fun h => (reservedWord_iff w).1 (decode_wf h), fun h => decode_reserved ((reservedWord_iff w).2 h)⟩, fun _ => rfl⟩

/-! ### Decoding what was encoded -/

theorem decode_encode_render (f : BitVec 16) : decode (encode (.render f)) = .ok (.render f) := by
  change decode (.command (3#8 ++ 0#8 ++ f)) = _
  simp only [decode, decodeCommand, reservedWord, hostWord_fields]
  rfl

theorem decode_encode_setParam (id : Byte) (v : BitVec 16) :
    decode (encode (.setParam id v)) = .ok (.setParam id v) := by
  simp only [encode, decode, decodeCommand, reservedWord, hostWord_fields]
  rfl

theorem decode_encode_getParam (id : Byte) : decode (encode (.getParam id)) = .ok (.getParam id) := by
  simp only [encode, decode, decodeCommand, reservedWord, hostWord_fields]
  rfl

/-- The records are the rows of their addresses. A MIDI row's bytes are read back field by field; the rows whose
condition matters are those of `Instr.wf`. -/
theorem decode_encode {i : Instr} (h : i.wf = true) : decode (encode i) = .ok i := by
  cases hi : Machine.recordChip i with
  | some c =>
    obtain ⟨a, v, hencode, hrow, -⟩ := Machine.updateOf_record hi
    rw [hencode]
    exact decodeRecord_append a v hrow
  | none =>
    cases i <;> simp only [Machine.recordChip, reduceCtorEq] at hi
    case create c => cases c <;> rfl
    case destroy => rfl
    case render f => exact decode_encode_render f
    case setParam id v => exact decode_encode_setParam id v
    case getParam id => exact decode_encode_getParam id
    case reserved w => exact decode_reserved h
    all_goals simp only [encode, voiceWord, decode_midiWord, decodeMidi_midiWord, top_bit, low_seven, nibble_top,
      nibble_channel, nibble_type]
    case midiMalformedData2 status d1 d2 =>
      have hthree : threeByteType (midiType status) = true := h
      simp [hthree]
    case noteOn ch n v =>
      have hvelocity : v ≠ 0 := bne_iff_ne.1 h
      simpa using hvelocity
    case ccOther ch k x =>
      obtain ⟨hwheel, hoff⟩ : k ≠ 1 ∧ k ≠ 123 := by simpa [Instr.wf] using h
      simp [show k ≠ 1#7 from hwheel, show k ≠ 123#7 from hoff]
    case pitchBend ch b =>
      rw [bend_halves]
      rfl
    case noteOnV0 ch n => simp
    case progChange ch p pad | chanPressure ch x pad | midiSystem lo d1 d2 => simp [threeByteType]
    all_goals rfl

/-- Settles O11. -/
theorem decodeAfterEncode : Obligations.DecodeAfterEncode := fun _ => decode_encode

theorem decode_word {i : Instr} {w : Word} (hwf : i.wf = true) (h : encode i = .command w) :
    decode (.command w) = .ok i :=
  h ▸ decode_encode hwf

/-! ### MIDI words (R112..R122) -/

theorem encode_ite {p : Prop} [Decidable p] {i j : Instr} {q : Packet} (hi : p → encode i = q)
    (hj : ¬p → encode j = q) : encode (if p then i else j) = q := by
  split
  next h => exact hi h
  next h => exact hj h

/-- The instruction of a MIDI word, from the numbers of its three bytes, in the priority of R121: what
`Obligations.MidiWordsDecode` writes out. -/
def midiInstr (S d1 d2 : Byte) : Instr :=
  let type := S.toNat / 16
  let ch : BitVec 4 := BitVec.ofNat 4 (S.toNat % 16)
  let x1 : BitVec 7 := BitVec.ofNat 7 (d1.toNat % 128)
  let x2 : BitVec 7 := BitVec.ofNat 7 (d2.toNat % 128)
  if S.toNat < 128 then .midiMalformedStatus (BitVec.ofNat 7 S.toNat) d1 d2
  else if 128 ≤ d1.toNat then .midiMalformedData1 (BitVec.ofNat 7 (S.toNat - 128)) x1 d2
  else if 128 ≤ d2.toNat ∧ (type = 8 ∨ type = 9 ∨ type = 10 ∨ type = 11 ∨ type = 14) then
    .midiMalformedData2 (BitVec.ofNat 7 (S.toNat - 128)) x1 x2
  else if type = 8 then .noteOff ch x1 x2
  else if type = 9 ∧ d2.toNat = 0 then .noteOnV0 ch x1
  else if type = 9 then .noteOn ch x1 x2
  else if type = 10 then .polyAt ch x1 x2
  else if type = 11 ∧ d1.toNat = 1 then .ccModwheel ch x2
  else if type = 11 ∧ d1.toNat = 123 then .ccAllNotesOff ch x2
  else if type = 11 then .ccOther ch x1 x2
  else if type = 12 then .progChange ch x1 d2
  else if type = 13 then .chanPressure ch x1 d2
  else if type = 14 then .pitchBend ch (BitVec.ofNat 14 (d2.toNat * 128 + d1.toNat))
  else .midiSystem ch x1 d2

/-- Row by row, the packet of the instruction has the number of the word. -/
theorem encode_midiInstr (S d1 d2 : Byte) : encode (midiInstr S d1 d2) = .command (midiWord S d1 d2) := by
  unfold midiInstr
  extract_lets type ch x1 x2
  repeat' refine encode_ite (fun _ => ?_) (fun _ => ?_)
  all_goals
    refine command_eq_of_toNat ?_
    simp only [ch, x1, x2, voiceWord, midiWord, toNat_join, toNat_field, BitVec.ofNat_eq_ofNat, BitVec.toNat_ofNat]
    omega

/-- Three rows have a condition: the branches before each leave it. -/
theorem midiInstr_wf (S d1 d2 : Byte) : (midiInstr S d1 d2).wf = true := by
  unfold midiInstr
  extract_lets type ch x1 x2
  repeat' refine Instr.wf_ite (fun _ => ?_) (fun _ => ?_)
  any_goals rfl
  next hmalformed =>
    obtain ⟨-, htype⟩ := hmalformed
    simp only [Instr.wf, threeByteType, midiType, Bool.or_eq_true, beq_iff_eq, field_eq_iff, BitVec.ofNat_eq_ofNat,
      BitVec.toNat_ofNat]
    omega
  next hvelocity htype => exact bne_iff_ne.2 (ofNat_ne_ofNat (l := 0) (by omega) (by omega) (by omega))
  next hwheel hoff htype =>
    exact Bool.and_eq_true_iff.2 ⟨bne_iff_ne.2 (ofNat_ne_ofNat (l := 1) (by omega) (by omega) (by omega)),
      bne_iff_ne.2 (ofNat_ne_ofNat (l := 123) (by omega) (by omega) (by omega))⟩

theorem decode_midiWord_eq (S d1 d2 : Byte) : decode (.command (midiWord S d1 d2)) = .ok (midiInstr S d1 d2) :=
  decode_word (midiInstr_wf S d1 d2) (encode_midiInstr S d1 d2)

/-- Settles O13: the instruction written out is well formed and its packet is the word. -/
theorem midiWordsDecode : Obligations.MidiWordsDecode := by
  intro S d1 d2
  rw [← midiWord_eq_ofNat]
  exact decode_midiWord_eq S d1 d2

/-! ### Encoding what was decoded -/

/-- The word of CREATE: its lowest bit is the chip (R110). -/
theorem encode_create (w : Word) :
    encode (.create (chipOfBit (w.getLsbD 0))) = .command (BitVec.ofNat 32 (0x01000000 + w.toNat % 2)) := by
  rw [← BitVec.testBit_toNat, Nat.testBit_zero]
  rcases Nat.mod_two_eq_zero_or_one w.toNat with h | h <;> rw [h] <;> rfl

/-- Of a word of kind 0x00 the three bytes are kept; of any other word that is not reserved, all bits that are not
operands are fixed by its kind and the must-be-zero bits. -/
theorem encode_decodeCommand (w : Word) : encode (decodeCommand w) = .command w := by
  by_cases h0 : w.extractLsb' 24 8 = 0
  · have hdecode := decode_midiWord_eq (w.extractLsb' 16 8) (w.extractLsb' 8 8) (w.extractLsb' 0 8)
    rw [midiWord_fields h0] at hdecode
    rw [Except.ok.inj hdecode, encode_midiInstr, midiWord_fields h0]
  · unfold decodeCommand
    simp only [h0, if_false]
    refine encode_ite (fun _ => rfl) fun hr => encode_ite (fun _ => (encode_create w).trans ?_) fun _ => ?_
    all_goals rw [reservedWord_iff] at hr
    on_goal 2 => repeat' refine encode_ite (fun _ => ?_) (fun _ => ?_)
    all_goals
      simp only [field_eq_iff, BitVec.ofNat_eq_ofNat, BitVec.toNat_ofNat] at *
      refine command_eq_of_toNat ?_
      simp only [toNat_join, toNat_field, BitVec.toNat_ofNat]
      omega

theorem encode_of_recordRow {a : Addr} {v : Byte} {i : Instr} (h : recordRow a.toNat v = some i) :
    encode i = recordPacket a v := by
  have row_addr {k : Nat} (hk : a.toNat = k) : BitVec.ofNat 16 k = a := by
    rw [← hk, BitVec.ofNat_toNat, BitVec.setWidth_eq]
  unfold recordRow at h
  split at h <;> cases h
  all_goals exact congrArg (recordPacket · v) (row_addr ‹_›)

theorem encode_of_decode {p : Packet} {i : Instr} (h : decode p = .ok i) : encode i = p := by
  cases p with
  | command w =>
    cases h
    exact encode_decodeCommand w
  | record r =>
    change decodeRecord r = .ok i at h
    unfold decodeRecord at h
    split at h
    next hrow =>
      cases h
      rw [encode_of_recordRow hrow, recordPacket, record_fields]
    · cases h

/-- Settles O12. -/
theorem encodeAfterDecode : Obligations.EncodeAfterDecode := fun _ _ h => ⟨decode_wf h, encode_of_decode h⟩

/-! ### The words of the host calls (R110), in numbers -/

theorem encode_render (f : BitVec 16) :
    encode (.render f) = .command (BitVec.ofNat 32 (0x03000000 + f.toNat)) := by
  refine command_eq_of_toNat ?_
  simp only [toNat_join, BitVec.toNat_ofNat]
  omega

theorem encode_setParam (id : Byte) (v : BitVec 16) :
    encode (.setParam id v) = .command (BitVec.ofNat 32 (0x04000000 + id.toNat * 65536 + v.toNat)) := by
  refine command_eq_of_toNat ?_
  simp only [toNat_join, BitVec.toNat_ofNat]
  omega

theorem encode_getParam (id : Byte) :
    encode (.getParam id) = .command (BitVec.ofNat 32 (0x05000000 + id.toNat * 65536)) := by
  refine command_eq_of_toNat ?_
  simp only [toNat_join, BitVec.toNat_ofNat]
  omega

/-- Settles O14: each word is its instruction's packet. -/
theorem hostCallWordsDecode : Obligations.HostCallWordsDecode :=
  ⟨rfl, rfl, rfl, fun f => decode_word rfl (encode_render f), fun id v => decode_word rfl (encode_setParam id v),
    fun id => decode_word rfl (encode_getParam id)⟩

/-- Settles O16, by running the decoder on the twelve words. -/
theorem writtenOutWordsDecode : Obligations.WrittenOutWordsDecode := by
  unfold Obligations.WrittenOutWordsDecode
  decide

end Sys2Proof

namespace Sys2Proof.Machine

/-- An instruction whose update leaves the instance as it is completes and changes nothing. -/
theorem exec_ignored {i : Instr} (h : updateOf i = some fun _ I => I) (s : State) : exec i s = .next s := by
  rw [exec_update h, onInstance_id]

/-- Settles O32. -/
theorem ignoredMessagesChangeNothing : Obligations.IgnoredMessagesChangeNothing := fun s =>
  ⟨fun _ _ _ => exec_ignored rfl s, fun _ _ _ => exec_ignored rfl s, fun _ _ _ => exec_ignored rfl s,
    fun _ _ _ => exec_ignored rfl s, fun _ _ _ => exec_ignored rfl s, fun _ _ _ => exec_ignored rfl s,
    fun _ _ _ => exec_ignored rfl s, fun _ _ _ => exec_ignored rfl s⟩

end Sys2Proof.Machine
end

section
/-! PROOFS. The command language (O15): the word column of R128 as a sum of fields, which is the number of the
instruction's packet; so `decode_encode` says what the word decodes to. -/

namespace Sys2Proof.Machine

/-! ### From the parts of a line to its command -/

/-- A channel part is no number: its first letter is no decimal digit. -/
theorem natPart_of_channelPart {p : String} {k : Nat} (h : channelPart p = some k) : natPart p = none := by
  unfold channelPart at h
  split at h
  next rest hp =>
    rw [natPart, hp]
    rfl
  · cases h

theorem noteOffTail_of_natPart {p : String} {v : Nat} (h : natPart p = some v) (rest : List String) :
    noteOffTail (p :: rest) = (channelOf rest).map fun c => (v, c) := by
  simp only [noteOffTail, h]

theorem noteOffTail_of_channelPart {p : String} {k : Nat} (h : channelPart p = some k) :
    noteOffTail [p] = some (0, k) := by
  simp only [noteOffTail, natPart_of_channelPart h, channelOf, h, Option.map_some]

theorem fits_of_parseLine {line : String} {t : TextCommand} (h : parseLine line = .command t) : t.fits = true := by
  unfold parseLine at h
  split at h
  · cases h
  · split at h
    · cases h
    · split at h
      next hfits =>
        cases h
        exact hfits
      · cases h

/-! ### From a command to its word -/

/-- Fields that do not overlap: joining their bits adds their numbers. -/
theorem or_eq_add {a b : Nat} (i : Nat) (ha : a % 2 ^ i = 0) (hb : b < 2 ^ i) : a ||| b = a + b := by
  obtain ⟨k, rfl⟩ := Nat.dvd_of_mod_eq_zero ha
  exact (Nat.two_pow_add_eq_or_of_lt hb k).symm

theorem or_voice_fields {t c n v : Nat} (hc : c < 16) (hn : n < 128) (hv : v < 128) :
    t * 0x100000 ||| (c <<< 16) ||| (n <<< 8) ||| v = t * 0x100000 + c * 0x10000 + n * 0x100 + v := by
  rw [Nat.shiftLeft_eq, Nat.shiftLeft_eq, or_eq_add 20 (a := t * _) (by omega) (by omega),
    or_eq_add 16 (b := n * _) (by omega) (by omega), or_eq_add 8 (by omega) (by omega)]

/-- A voice word whose operands fit their fields. -/
theorem voiceWord_ofNat {t c n v : Nat} (ht : t < 16) (hc : c < 16) (hn : n < 128) (hv : v < 128) :
    voiceWord (.ofNat 4 t) (.ofNat 4 c) (.ofNat 7 n) (.ofNat 7 v) =
      BitVec.ofNat 32 (t * 0x100000 + c * 0x10000 + n * 0x100 + v) := by
  apply BitVec.eq_of_toNat_eq
  simp only [voiceWord, midiWord, toNat_join, BitVec.toNat_ofNat]
  omega

/-- The two data bytes of a bend (R117). -/
theorem bend_data_bytes (b : Nat) : (BitVec.ofNat 14 b).extractLsb' 0 7 = .ofNat 7 (b % 128) ∧
    (BitVec.ofNat 14 b).extractLsb' 7 7 = .ofNat 7 (b / 128) := by
  constructor <;> rw [field_eq_iff] <;> simp only [BitVec.toNat_ofNat] <;> omega

/-- A line for a voice message of type `t` decodes to the instruction of that message. -/
theorem decode_word_voice (t : Nat) {c n v : Nat} {i : Instr} {l : TextCommand} (ht : t < 16) (hc : c < 16)
    (hn : n < 128) (hv : v < 128) (hl : l.number = t * 0x100000 ||| (c <<< 16) ||| (n <<< 8) ||| v)
    (hi : encode i = .command (voiceWord (.ofNat 4 t) (.ofNat 4 c) (.ofNat 7 n) (.ofNat 7 v))) (hwf : i.wf = true) :
    decode (.command l.word) = .ok i := by
  refine decode_word hwf ?_
  rw [hi, voiceWord_ofNat ht hc hn hv, TextCommand.word, hl, or_voice_fields hc hn hv]

section
variable {n v k x c b f id : Nat}

theorem decode_word_noteOff (hn : n < 128) (hv : v < 128) (hc : c < 16) :
    decode (.command (TextCommand.noteOff n v c).word) = .ok (.noteOff (.ofNat 4 c) (.ofNat 7 n) (.ofNat 7 v)) :=
  decode_word_voice 8 (by omega) hc hn hv rfl rfl rfl

theorem decode_word_noteOn (hn : n < 128) (hv : v < 128) (hc : c < 16) :
    decode (.command (TextCommand.noteOn n v c).word) =
      .ok (if v = 0 then .noteOnV0 (.ofNat 4 c) (.ofNat 7 n)
           else .noteOn (.ofNat 4 c) (.ofNat 7 n) (.ofNat 7 v)) := by
  refine decode_word_voice 9 (by omega) hc hn hv rfl ?_ ?_
  · exact encode_ite (fun h => by rw [h]; rfl) fun _ => rfl
  · exact Instr.wf_ite (fun _ => rfl) fun h => bne_iff_ne.2 (ofNat_ne_ofNat (l := 0) hv (by omega) h)

theorem decode_word_cc (hk : k < 128) (hx : x < 128) (hc : c < 16) :
    decode (.command (TextCommand.cc k x c).word) =
      .ok (if k = 1 then .ccModwheel (.ofNat 4 c) (.ofNat 7 x)
           else if k = 123 then .ccAllNotesOff (.ofNat 4 c) (.ofNat 7 x)
           else .ccOther (.ofNat 4 c) (.ofNat 7 k) (.ofNat 7 x)) := by
  refine decode_word_voice 11 (by omega) hc hk hx rfl ?_ ?_
  · exact encode_ite (fun h => by rw [h]; rfl) fun _ => encode_ite (fun h => by rw [h]; rfl) fun _ => rfl
  · exact Instr.wf_ite (fun _ => rfl) fun hwheel => Instr.wf_ite (fun _ => rfl) fun hoff =>
      Bool.and_eq_true_iff.2 ⟨bne_iff_ne.2 (ofNat_ne_ofNat (l := 1) hk (by omega) hwheel),
        bne_iff_ne.2 (ofNat_ne_ofNat (l := 123) hk (by omega) hoff)⟩

theorem decode_word_bend (hb : b < 16384) (hc : c < 16) :
    decode (.command (TextCommand.bend b c).word) = .ok (.pitchBend (.ofNat 4 c) (.ofNat 14 b)) := by
  obtain ⟨hlow, hhigh⟩ := bend_data_bytes b
  refine decode_word_voice 14 (n := b % 128) (v := b / 128) (by omega) hc (by omega) (by omega) ?_ ?_ rfl
  · rw [← Nat.and_two_pow_sub_one_eq_mod b 7, ← Nat.shiftRight_eq_div_pow b 7]
    rfl
  · rw [← hlow, ← hhigh]
    rfl

theorem decode_word_render (hf : f < 65536) :
    decode (.command (TextCommand.render f).word) = .ok (.render (.ofNat 16 f)) := by
  refine decode_word rfl ?_
  rw [encode_render, BitVec.toNat_ofNat, Nat.mod_eq_of_lt hf, TextCommand.word, TextCommand.number,
    or_eq_add 24 (by omega) (by omega)]

theorem decode_word_set (hid : id < 256) (z : Int) :
    decode (.command (TextCommand.set id z).word) = .ok (.setParam (.ofNat 8 id) (.ofInt 16 z)) := by
  refine decode_word rfl ?_
  rw [encode_setParam, BitVec.toNat_ofNat, BitVec.toNat_ofInt, Nat.mod_eq_of_lt hid, TextCommand.word,
    TextCommand.number, Nat.shiftLeft_eq, or_eq_add 24 (a := 0x04000000) (by omega) (by omega),
    or_eq_add 16 (by omega) (by omega)]
  rfl

theorem decode_word_get (hid : id < 256) :
    decode (.command (TextCommand.get id).word) = .ok (.getParam (.ofNat 8 id)) := by
  refine decode_word rfl ?_
  rw [encode_getParam, BitVec.toNat_ofNat, Nat.mod_eq_of_lt hid, TextCommand.word, TextCommand.number,
    Nat.shiftLeft_eq, or_eq_add 24 (by omega) (by omega)]

end

theorem word_midi (s : Nat) {d1 d2 : Nat} (h1 : d1 < 256) (h2 : d2 < 256) :
    (TextCommand.midi s d1 d2).word = BitVec.ofNat 32 (s * 65536 + d1 * 256 + d2) := by
  rw [TextCommand.word, TextCommand.number, Nat.shiftLeft_eq, Nat.shiftLeft_eq,
    or_eq_add 16 (a := s * _) (by omega) (by omega), or_eq_add 8 (by omega) (by omega)]

/-- Settles O15: each form of line is one arm of `parseParts`, the whole lines are run, and each command that fits has
its word. -/
theorem textCommandsDecode : Obligations.TextCommandsDecode := by
  refine ⟨?parts, by decide +kernel, by decide +kernel, by decide +kernel, by decide +kernel, by decide +kernel,
    by decide +kernel, by decide +kernel, by decide +kernel, by decide +kernel, by decide +kernel,
    fun _ _ => fits_of_parseLine, ?words⟩
  case parts =>
    intro a b c m n k x ha hb hx hc
    have hvelocity := noteOffTail_of_natPart hb
    have hchannel := noteOffTail_of_channelPart hc
    have hnone : noteOffTail [] = some (0, 0) := rfl
    simp +contextual [parseParts, channelOf, hvelocity, hchannel, hnone, ha, hb, hx, hc]
  case words =>
    intro t ht
    cases t <;> simp only [TextCommand.fits, Bool.and_eq_true, decide_eq_true_eq] at ht ⊢
    case create chip => cases chip <;> rfl
    case destroy => rfl
    case render f => exact decode_word_render ht
    case set id z => exact decode_word_set ht z
    case get id => exact decode_word_get ht
    case noteOn n v c =>
      obtain ⟨⟨hn, hv⟩, hc⟩ := ht
      exact decode_word_noteOn hn hv hc
    case noteOff n v c =>
      obtain ⟨⟨hn, hv⟩, hc⟩ := ht
      exact decode_word_noteOff hn hv hc
    case cc k x c =>
      obtain ⟨⟨hk, hx⟩, hc⟩ := ht
      exact decode_word_cc hk hx hc
    case bend b c =>
      obtain ⟨hb, hc⟩ := ht
      exact decode_word_bend hb hc
    case midi s d1 d2 =>
      obtain ⟨⟨-, h1⟩, h2⟩ := ht
      exact word_midi s h1 h2

end Sys2Proof.Machine
end

section
/-! PROOFS. The envelope generator: its step stage by stage (O20), what is captured and gated (O21), the range of the
level over every run (O19) and how many steps each stage lasts (O22). -/

namespace Sys2Proof.Machine

/-! ### The step on each side of its comparison (R166, R167, R169) -/

section Steps

variable {e : Envelope}

theorem Envelope.step_attack_of_lt (hs : e.stage = .attack) (h : e.level + e.aRate < 1) :
    e.step = { e with level := e.level + e.aRate } := by
  rw [Envelope.step_attack hs, Envelope.attackStep, if_neg (not_le.2 h)]

theorem Envelope.step_attack_of_le (hs : e.stage = .attack) (h : 1 ≤ e.level + e.aRate) :
    e.step = { e with level := 1, stage := .decay } := by
  rw [Envelope.step_attack hs, Envelope.attackStep, if_pos h]

theorem Envelope.step_decay_of_lt (hs : e.stage = .decay) (h : e.sLevel < e.level - e.dRate) :
    e.step = { e with level := e.level - e.dRate } := by
  rw [Envelope.step_decay hs, Envelope.decayStep, if_neg (not_le.2 h)]

theorem Envelope.step_decay_of_le (hs : e.stage = .decay) (h : e.level - e.dRate ≤ e.sLevel) :
    e.step = { e with level := e.sLevel, stage := if 0 < e.sLevel then .sustain else .idle } := by
  rw [Envelope.step_decay hs, Envelope.decayStep, if_pos h]

theorem Envelope.step_release_of_lt (hs : e.stage = .release) (h : 0 < e.level - e.rRate) :
    e.step = { e with level := e.level - e.rRate } := by
  rw [Envelope.step_release hs, Envelope.releaseStep, if_neg (not_le.2 h)]

theorem Envelope.step_release_of_le (hs : e.stage = .release) (h : e.level - e.rRate ≤ 0) :
    e.step = { e with level := 0, stage := .idle } := by
  rw [Envelope.step_release hs, Envelope.releaseStep, if_pos h]

end Steps

/-- Settles O20: each clause is the step on one side of its stage's comparison. -/
theorem envelopeStageSteps : Obligations.EnvelopeStageSteps := fun _ =>
  ⟨Envelope.step_attack_of_lt, Envelope.step_attack_of_le, Envelope.step_decay_of_lt,
    fun hs hl hp => by rw [Envelope.step_decay_of_le hs hl, if_pos hp],
    fun hs hl hp => by rw [Envelope.step_decay_of_le hs hl, if_neg (not_lt.2 hp)],
    Envelope.step_sustain, Envelope.step_release_of_lt, Envelope.step_release_of_le, Envelope.step_idle⟩

/-! ### Configuration and gates (R160, R162, R163, R164) -/

theorem Envelope.configure_eq (cfg : Config) (P : Params) (e : Envelope) :
    e.configure cfg P =
      { e with
        aRate := timeRate P.attack cfg.attackDiv cfg.sr
        dRate := timeRate P.decay cfg.drDiv cfg.sr
        rRate := timeRate P.release cfg.drDiv cfg.sr
        sLevel := (P.sustain : Rat) / 15 } := by
  simp only [Envelope.configure, envRate_eq]

/-- Settles O21. -/
theorem envelopeConfigureAndGates : Obligations.EnvelopeConfigureAndGates := fun cfg P e =>
  ⟨e.configure_eq cfg P, rfl, fun hs => if_pos hs, fun hs => if_neg hs⟩

/-! ### The ranges over every run (R174) -/

theorem EnvelopeOk.run {cfg : Config} {e : Envelope} {op : EnvelopeOp} (hc : cfg.wf) (h : EnvelopeOk e)
    (hop : ∀ P, op = .configure P → ParamsOk cfg P) : EnvelopeOk (op.run cfg e) := by
  cases op with
  | configure P => exact EnvelopeOk.configure hc (hop P rfl).sustain h.levelLow h.levelHigh h.idleLevel
  | gateOn => exact h.gateOn
  | gateOff => exact h.gateOff
  | step => exact h.step
  | advance n => exact h.advance n

theorem EnvelopeOk.foldl_run {cfg : Config} (hc : cfg.wf) (ops : List EnvelopeOp) {e : Envelope} (h : EnvelopeOk e)
    (hops : ∀ P, EnvelopeOp.configure P ∈ ops → ParamsOk cfg P) : EnvelopeOk (ops.foldl (EnvelopeOp.run cfg) e) :=
  List.foldlRecOn ops _ h fun _ he _ hop => he.run hc fun P hP => hops P (hP ▸ hop)

/-- Settles O19: every operation keeps the ranges, and the step after the run keeps them too. -/
theorem envelopeStaysInRange : Obligations.EnvelopeStaysInRange := by
  intro cfg e ops hc he hops
  have hok := he.foldl_run hc ops hops
  exact ⟨hok.levelLow, hok.levelHigh, hok.step.idleLevel⟩

/-! ### Ramps: the level moves by the same amount in each step of a stage -/

/-- The level after k steps of `d` each, in the same stage. -/
def Envelope.ramp (e : Envelope) (d : Rat) (k : Nat) : Envelope := { e with level := e.level + k * d }

theorem Envelope.level_ramp (e : Envelope) (d : Rat) (k : Nat) : (e.ramp d k).level = e.level + k * d := rfl

theorem Envelope.ramp_zero (e : Envelope) (d : Rat) : e.ramp d 0 = e := by simp [Envelope.ramp]

theorem Envelope.ramp_succ (e : Envelope) (d : Rat) (k : Nat) :
    e.ramp d (k + 1) = { e.ramp d k with level := (e.ramp d k).level + d } := by
  simp only [Envelope.ramp, Nat.cast_add_one, add_one_mul, add_assoc]

/-- If each of the first n steps moves the level by `d`, the envelope after k ≤ n steps is on the ramp. -/
theorem Envelope.advance_eq_ramp {e : Envelope} {d : Rat} {n : Nat}
    (h : ∀ k < n, (e.ramp d k).step = e.ramp d (k + 1)) : ∀ k ≤ n, e.advance k = e.ramp d k
  | 0, _ => (e.ramp_zero d).symm
  | k + 1, hk => by
    rw [Envelope.advance_add, Envelope.advance_eq_ramp h k (by omega), Envelope.advance_succ, Envelope.advance_zero,
      h k hk]

/-- The number of steps of `rate` each that a level needs to move by `gap`: at least one step is made. -/
def rampSteps (gap rate : Rat) : Nat := max 1 ⌈gap / rate⌉₊

theorem mul_lt_of_lt_rampSteps {gap rate : Rat} {k : Nat} (hr : 0 < rate) (hk : k + 1 < rampSteps gap rate) :
    (k + 1) * rate < gap := by
  have hceil : k + 1 < ⌈gap / rate⌉₊ := by rw [rampSteps] at hk; omega
  rw [← lt_div_iff₀ hr]
  exact_mod_cast Nat.lt_ceil.1 hceil

theorem le_rampSteps_mul {gap rate : Rat} (hr : 0 < rate) : gap ≤ rampSteps gap rate * rate := by
  rw [← div_le_iff₀ hr]
  exact Nat.ceil_le.1 (le_max_right _ _)

/-- A ramp of `gap` by `rate` a step: before the last step the level is on the ramp, the last step answers `e'`. -/
theorem Envelope.advance_rampSteps {e e' : Envelope} {d gap rate : Rat} (hr : 0 < rate)
    (hstep : ∀ k : Nat, (k + 1) * rate < gap → (e.ramp d k).step = e.ramp d (k + 1))
    (hend : ∀ k : Nat, gap ≤ (k + 1) * rate → (e.ramp d k).step = e') :
    (∀ k < rampSteps gap rate, (e.advance k).stage = e.stage) ∧ e.advance (rampSteps gap rate) = e' := by
  obtain ⟨m, hm⟩ : ∃ m, rampSteps gap rate = m + 1 := Nat.exists_eq_add_of_le' (le_max_left _ _)
  have hramp := Envelope.advance_eq_ramp (e := e) (d := d) (n := m) fun k hk =>
    hstep k (mul_lt_of_lt_rampSteps hr (by omega))
  have hgap : gap ≤ ((m : Rat) + 1) * rate := by exact_mod_cast hm ▸ le_rampSteps_mul hr
  rw [hm]
  constructor
  · intro k hk
    rw [hramp k (by omega)]
    rfl
  · rw [Envelope.advance_add, hramp m le_rfl]
    exact hend m hgap

/-! ### The length of each stage, for any rate -/

theorem Envelope.advance_attack {e : Envelope} (hs : e.stage = .attack) (hr : 0 < e.aRate) :
    (∀ k < rampSteps (1 - e.level) e.aRate, (e.advance k).stage = .attack) ∧
    e.advance (rampSteps (1 - e.level) e.aRate) = { e with level := 1, stage := .decay } := by
  rw [← hs]
  refine Envelope.advance_rampSteps (d := e.aRate) hr (fun k hk => ?below) fun k hk => ?reached
  case below =>
    rw [Envelope.ramp_succ]
    exact Envelope.step_attack_of_lt hs (show e.level + k * e.aRate + e.aRate < 1 by linarith)
  case reached =>
    exact Envelope.step_attack_of_le (e := e.ramp _ k) hs (show 1 ≤ e.level + k * e.aRate + e.aRate by linarith)

theorem Envelope.advance_decay {e : Envelope} (hs : e.stage = .decay) (hr : 0 < e.dRate) :
    (∀ k < rampSteps (e.level - e.sLevel) e.dRate, (e.advance k).stage = .decay) ∧
    e.advance (rampSteps (e.level - e.sLevel) e.dRate) =
      { e with level := e.sLevel, stage := if 0 < e.sLevel then .sustain else .idle } := by
  rw [← hs]
  refine Envelope.advance_rampSteps (d := -e.dRate) hr (fun k hk => ?above) fun k hk => ?reached
  case above =>
    rw [Envelope.ramp_succ, ← sub_eq_add_neg]
    exact Envelope.step_decay_of_lt hs (show e.sLevel < e.level + k * -e.dRate - e.dRate by linarith)
  case reached =>
    exact Envelope.step_decay_of_le (e := e.ramp _ k) hs
      (show e.level + k * -e.dRate - e.dRate ≤ e.sLevel by linarith)

theorem Envelope.advance_release {e : Envelope} (hs : e.stage = .release) (hr : 0 < e.rRate) :
    (∀ k < rampSteps e.level e.rRate, (e.advance k).stage = .release) ∧
    e.advance (rampSteps e.level e.rRate) = { e with level := 0, stage := .idle } := by
  rw [← hs]
  refine Envelope.advance_rampSteps (d := -e.rRate) hr (fun k hk => ?above) fun k hk => ?reached
  case above =>
    rw [Envelope.ramp_succ, ← sub_eq_add_neg]
    exact Envelope.step_release_of_lt hs (show 0 < e.level + k * -e.rRate - e.rRate by linarith)
  case reached =>
    exact Envelope.step_release_of_le (e := e.ramp _ k) hs
      (show e.level + k * -e.rRate - e.rRate ≤ 0 by linarith)

/-! ### The three durations of R173 -/

theorem timeRate_pos {param div sr : Nat} (hd : 0 < div) (hs : 0 < sr) : 0 < timeRate param div sr := by
  unfold timeRate
  split <;> positivity

theorem rampSteps_of_le {gap rate : Rat} (hr : 0 < rate) (h : gap ≤ rate) : rampSteps gap rate = 1 :=
  max_eq_left (Nat.ceil_le.2 (by rw [Nat.cast_one]; exact (div_le_one hr).2 h))

/-- Parameter 0 is instant: one step moves the level by up to 1 (R160). -/
theorem rampSteps_timeRate_zero {gap : Rat} (h : gap ≤ 1) (div sr : Nat) : rampSteps gap (timeRate 0 div sr) = 1 :=
  rampSteps_of_le one_pos h

theorem rampSteps_timeRate {param : Nat} (hp : param ≠ 0) (gap : Rat) (div sr : Nat) :
    rampSteps gap (timeRate param div sr) = max 1 ⌈gap * (param * sr / div)⌉₊ := by
  rw [rampSteps, timeRate, if_neg hp, div_eq_mul_inv, inv_div]

theorem rampSteps_attack (a : Nat) : rampSteps (1 - 0) (timeRate a 60 44100) = if a = 0 then 1 else 735 * a := by
  rw [sub_zero]
  split_ifs with ha
  · subst ha
    exact rampSteps_timeRate_zero le_rfl _ _
  · have hsteps : (1 : Rat) * (a * (44100 : Nat) / (60 : Nat)) = (735 * a : Nat) := by push_cast; ring
    rw [rampSteps_timeRate ha, hsteps, Nat.ceil_natCast]
    omega

theorem rampSteps_decay (d : Nat) {s : Nat} (hs : s ≤ 15) :
    rampSteps (1 - (s : Rat) / 15) (timeRate d 15 44100) = if d = 0 ∨ s = 15 then 1 else 196 * d * (15 - s) := by
  by_cases hd : d = 0
  · subst hd
    rw [if_pos (.inl rfl)]
    exact rampSteps_timeRate_zero (sub_le_self _ (by positivity)) _ _
  · have hsteps : (1 - (s : Rat) / 15) * (d * (44100 : Nat) / (15 : Nat)) = (196 * d * (15 - s) : Nat) := by
      push_cast [hs]; ring
    rw [rampSteps_timeRate hd, hsteps, Nat.ceil_natCast]
    split_ifs with h
    · obtain rfl : s = 15 := h.resolve_left hd
      simp
    · exact max_eq_right (Nat.mul_pos (by omega) (by omega))

theorem rampSteps_release (r : Nat) {L : Rat} (h0 : 0 ≤ L) (h1 : L ≤ 1) :
    rampSteps L (timeRate r 15 44100) = if r = 0 ∨ L = 0 then 1 else ⌈2940 * (r : Rat) * L⌉.toNat := by
  by_cases hr : r = 0
  · subst hr
    rw [if_pos (.inl rfl)]
    exact rampSteps_timeRate_zero h1 _ _
  · have hsteps : L * (r * (44100 : Nat) / (15 : Nat)) = 2940 * r * L := by push_cast; ring
    rw [rampSteps_timeRate hr, hsteps, Int.ceil_toNat]
    split_ifs with h
    · obtain rfl : L = 0 := h.resolve_left hr
      simp
    · have hL : 0 < L := h0.lt_of_ne' fun hL => h (.inr hL)
      have hr' : (0 : Rat) < r := by exact_mod_cast Nat.pos_of_ne_zero hr
      exact max_eq_right (Nat.one_le_ceil_iff.2 (by positivity))

/-- Settles O22: each stage is a ramp of its gap by its captured rate. -/
theorem stageDurations : Obligations.StageDurations := by
  intro cfg P e0 hsr ha hdr hP
  have hpos (param : Nat) {div : Nat} (hd : 0 < div) : 0 < timeRate param div 44100 := timeRate_pos hd (by decide)
  have hsustain : 0 < (P.sustain : Rat) / 15 ↔ ¬P.sustain = 0 := by
    rw [div_pos_iff_of_pos_right (by norm_num), Nat.cast_pos, Nat.pos_iff_ne_zero]
  rw [Envelope.configure_eq, hsr, ha, hdr]
  refine ⟨?attack, ?decay, fun L h0 h1 => ?release⟩
  case attack =>
    intro e n
    obtain ⟨hstage, hend⟩ := Envelope.advance_attack (e := e) rfl (hpos _ (by decide))
    rw [show rampSteps (1 - e.level) e.aRate = n from rampSteps_attack _] at hstage hend
    exact ⟨hstage, by rw [hend], by rw [hend]⟩
  case decay =>
    intro e n
    obtain ⟨hstage, hend⟩ := Envelope.advance_decay (e := e) rfl (hpos _ (by decide))
    rw [show rampSteps (e.level - e.sLevel) e.dRate = n from rampSteps_decay _ hP.sustain] at hstage hend
    refine ⟨hstage, ?_, by rw [hend]⟩
    rw [hend]
    simp only [e, hsustain, ite_not]
  case release =>
    intro e n
    obtain ⟨hstage, hend⟩ := Envelope.advance_release (e := e) rfl (hpos _ (by decide))
    rw [show rampSteps e.level e.rRate = n from rampSteps_release _ h0 h1] at hstage hend
    exact ⟨hstage, by rw [hend], by rw [hend]⟩

end Sys2Proof.Machine
end

section
/-! PROOFS. The pitch modulator: the noise channel takes no frequency (O56), the factors of a voice's frequency (O57),
and what a render leaves of the instance, with the pitch state it advances (O42). -/

namespace Sys2Proof.Machine

/-! ### The noise channel (R209) -/

theorem encNes_noise (cfg : Config) (P : Params) {v : Voice} (h : v.channel = 3) (f : Rat) (q : Nat) (trig : Bool) :
    encNes cfg P v f q trig = encNesNoise cfg P v.note q trig := by
  simp only [encNes, h]

theorem encGb_noise (cfg : Config) (P : Params) {v : Voice} (h : v.channel = 3) (f : Rat) (q : Nat) (trig : Bool) :
    encGb cfg P v f q trig = encGbNoise cfg P v.note q trig := by
  simp only [encGb, h]

/-- Settles O56: the noise encoders take no frequency, and of the parameters neither they nor the volume read one that
belongs to the pitch. -/
theorem noiseIgnoresPitch : Obligations.NoiseIgnoresPitch := by
  intro cfg I w level b x p depth rate detune speed penvDepth hnoise
  unfold voiceWrites
  cases I.chip with
  | nes =>
    simp only [encNes_noise, hnoise]
    rfl
  | gb =>
    simp only [encGb_noise, hnoise]
    rfl

/-! ### EXP2 and SIN2PI at the points where the approximations are exact (R12) -/

/-- An octave up, at any exponent: only the integer part that `exp2Approx` splits off grows. -/
theorem exp2Approx_add_one (x : Rat) : exp2Approx (x + 1) = 2 * exp2Approx x := by
  have hfract : x + 1 - ((⌊x⌋ + 1 : Int) : Rat) = x - ⌊x⌋ := by
    push_cast
    ring
  rw [exp2Approx, exp2Approx, Int.floor_add_one, hfract, zpow_add_one₀ two_ne_zero]
  ring

section
variable {cfg : Config} (h : cfg.exp2 = .approximation)
include h

theorem exp2_eq_approx (x : Rat) : exp2 cfg x = exp2Approx x := by
  simp only [exp2, h]

theorem exp2_zero : exp2 cfg 0 = 1 := by
  rw [exp2_eq_approx h]
  simpa using exp2Approx_intCast 0

theorem exp2_one : exp2 cfg 1 = 2 := by
  rw [exp2_eq_approx h]
  simpa using exp2Approx_intCast 1

theorem exp2_neg_one : exp2 cfg (-1) = 1 / 2 := by
  rw [exp2_eq_approx h]
  simpa using exp2Approx_intCast (-1)

theorem noteFreq_a4Note : noteFreq cfg cfg.a4Note = cfg.a4Hz := by
  rw [noteFreq, sub_self, zero_div, exp2_zero h, mul_one]

theorem noteFreq_octave (n : Nat) : noteFreq cfg (n + 12) = 2 * noteFreq cfg n := by
  have hexponent : (((n + 12 : Nat) : Rat) - cfg.a4Note) / 12 = ((n : Rat) - cfg.a4Note) / 12 + 1 := by
    push_cast
    ring
  rw [noteFreq, noteFreq, hexponent, exp2_eq_approx h, exp2_eq_approx h, exp2Approx_add_one]
  ring

end

/-- The four quarters of a turn. -/
theorem sin2piApprox_quarters :
    sin2piApprox 0 = 0 ∧ sin2piApprox (1 / 4) = 1 ∧ sin2piApprox (1 / 2) = 0 ∧ sin2piApprox (3 / 4) = -1 := by
  decide +kernel

/-! ### The factors of a frequency (R205, R207) -/

theorem vibMul_of_off {cfg : Config} {I : Instance} (h : I.params.vibDepth = 0 ∨ I.params.vibRate = 0) :
    vibMul cfg I = 1 :=
  if_neg (by omega)

theorem vibMul_of_on {cfg : Config} {I : Instance} (hd : 0 < I.params.vibDepth) (hr : 0 < I.params.vibRate) :
    vibMul cfg I = exp2 cfg (sin2pi cfg I.lfoPhase * I.params.vibDepth / 1200) :=
  if_pos ⟨hd, hr⟩

/-- At a zero of the sine the vibrato multiplies by 1, on or off. -/
theorem vibMul_of_sin2pi_eq_zero {cfg : Config} {I : Instance} (h : cfg.exp2 = .approximation)
    (hsin : sin2pi cfg I.lfoPhase = 0) : vibMul cfg I = 1 := by
  unfold vibMul
  split
  · rw [hsin, zero_mul, zero_div, exp2_zero h]
  · rfl

theorem bothPulses_iff (cfg : Config) (P : Params) :
    bothPulses cfg P = true ↔ maskBit cfg P 0 ∧ maskBit cfg P 1 := by
  rw [bothPulses, Bool.and_eq_true, enabled_iff, enabled_iff]

theorem detuneMul_of_pulse2 {cfg : Config} {P : Params} {v : Voice} (hc : v.channel = 1) (h0 : maskBit cfg P 0)
    (h1 : maskBit cfg P 1) : detuneMul cfg P v = exp2 cfg ((P.detune : Rat) / 1200) :=
  if_pos ⟨hc, (bothPulses_iff cfg P).2 ⟨h0, h1⟩⟩

theorem detuneMul_of_not_pulse2 {cfg : Config} {P : Params} {v : Voice}
    (h : v.channel ≠ 1 ∨ ¬maskBit cfg P 0 ∨ ¬maskBit cfg P 1) : detuneMul cfg P v = 1 := by
  refine if_neg ?_
  rw [bothPulses_iff]
  tauto

theorem detuneMul_of_detune_zero {cfg : Config} {P : Params} (h : cfg.exp2 = .approximation) (hd : P.detune = 0)
    (v : Voice) : detuneMul cfg P v = 1 := by
  unfold detuneMul
  split
  · rw [hd, Nat.cast_zero, zero_div, exp2_zero h]
  · rfl

/-- Settles O57: the factors by definition, the corner values from the exact points of EXP2 and SIN2PI. -/
theorem pitchFactors : Obligations.PitchFactors := by
  intro cfg I w
  refine ⟨rfl, fun _ => rfl, rfl, rfl, vibMul_of_off, vibMul_of_on, detuneMul_of_pulse2, detuneMul_of_not_pulse2,
    fun hexp => ?corners, fun hexp hsin => ?vibrato⟩
  case corners =>
    refine ⟨noteFreq_a4Note hexp, noteFreq_octave hexp, fun hb => ?_, fun hp => ?_, fun hp => ?_, fun hp => ?_,
      fun hd => detuneMul_of_detune_zero hexp hd w⟩
    · rw [bendMul, hb, zero_div, exp2_zero hexp]
    · rw [penvMul, hp, zero_div, exp2_zero hexp]
    · rw [penvMul, hp, div_self (by norm_num), exp2_one hexp]
    · rw [penvMul, hp, neg_div, div_self (by norm_num), exp2_neg_one hexp]
  case vibrato =>
    obtain ⟨hzero, hquarter, hhalf, hthreeQuarters⟩ := sin2piApprox_quarters
    have hsinOf {x y : Rat} (hx : I.lfoPhase = x) (hy : sin2piApprox x = y) : sin2pi cfg I.lfoPhase = y := by
      simp only [sin2pi, hsin, hx, hy]
    refine ⟨fun hphase => ?_, fun hd hr hphase => ?_, fun hd hr hphase => ?_⟩
    · rcases hphase with hphase | hphase
      · exact vibMul_of_sin2pi_eq_zero hexp (hsinOf hphase hzero)
      · exact vibMul_of_sin2pi_eq_zero hexp (hsinOf hphase hhalf)
    · rw [vibMul_of_on hd hr, hsinOf hphase hquarter, one_mul]
    · rw [vibMul_of_on hd hr, hsinOf hphase hthreeQuarters, neg_one_mul]

/-! ### The instance after a render (R204, R206, R332, R333, R339) -/

/-- PENV_DECAY (R204) with level 0 counted as nonnegative: there the maximum is 0. -/
theorem penvDecay_eq (cfg : Config) (P : Params) (frames : Nat) (penv : Rat) :
    penvDecay cfg P frames penv =
      let d : Rat := (P.penvDepth.natAbs : Rat) * cfg.penvDiv * frames / ((P.penvSpeed : Rat) * cfg.sr)
      if P.penvSpeed = 0 then penv
      else if 0 ≤ penv then max 0 (penv - d)
      else min 0 (penv + d) := by
  have hd : 0 ≤ (P.penvDepth.natAbs : Rat) * cfg.penvDiv * frames / ((P.penvSpeed : Rat) * cfg.sr) := by positivity
  simp only [penvDecay, div_mul_eq_mul_div]
  generalize (P.penvDepth.natAbs : Rat) * cfg.penvDiv * frames / ((P.penvSpeed : Rat) * cfg.sr) = d at hd ⊢
  rcases lt_trichotomy penv 0 with hneg | rfl | hpos
  · rw [if_neg hneg.not_gt, if_pos hneg, if_neg hneg.not_ge]
  · rw [if_neg (lt_irrefl 0), if_neg (lt_irrefl 0), if_pos le_rfl, max_eq_left (by linarith)]
  · rw [if_pos hpos, if_pos hpos.le]

theorem budget_eq_chipClock (cfg : Config) (chip : Chip) :
    budget cfg chip = (2 * cfg.fpb * chipClock cfg chip + cfg.sr) / (2 * cfg.sr) := by
  rw [budget_eq]
  cases chip <;> rfl

/-- Settles O42, from the fields of the block (`renderBlock_spec`) and the three things a block makes of a voice. -/
theorem renderUpdatesInstance : Obligations.RenderUpdatesInstance := by
  intro s I f hI hf
  obtain ⟨hchip, hparams, hpreset, hbend, hage, hinit, hlfo, hvoice, -, henqueued, -, hcycles⟩ :=
    renderBlock_spec s.cfg s.cfg.fpb I
  obtain ⟨hlow, hhigh⟩ := lfoAdvance_range s.cfg I.params s.cfg.fpb I.lfoPhase
  rw [← hlfo] at hlow hhigh
  refine ⟨_, _, exec_render hI hf, length_renderBlock_snd _ _ _, hchip, hparams, hpreset, hbend, hage, hinit,
    hlow, hhigh, ⟨_, hlfo⟩, ?_, henqueued, length_renderBlock _ _ _, fun k => ?_⟩
  · rw [hcycles, budget_eq_chipClock]
  · rw [hvoice k]
    rcases (I.voice k).rendered_cases s.cfg I.params s.cfg.fpb with
      ⟨hinactive, hsame⟩ | ⟨hactive, hidle, hended⟩ | ⟨hactive, hlive, hadvanced⟩
    · simp [hsame, hinactive, Survives]
    · simp [hended, hactive, hidle, Survives]
    · simp [hadvanced, hactive, hlive, Survives, penvDecay_eq]

end Sys2Proof.Machine
end

section
/-! PROOFS. The note-on of each mode (42_allocator.md): what the selectors answer where the rules fix their answer, and
from that the voices started (O24 to O26, O28) and the unison double (O27). -/

namespace Sys2Proof.Machine

/-! ### The channel selected (R234..R236) -/

theorem leadClear_of_lead {I : Instance} (hm : I.params.mode = .lead) : I.leadClear = I.deactivateAll := if_pos hm

theorem leadClear_of_ne_lead {I : Instance} (hm : I.params.mode ≠ .lead) : I.leadClear = I := if_neg hm

theorem maskEmpty_false {cfg : Config} {P : Params} {c : Fin 4} (hc : maskBit cfg P c) : maskEmpty cfg P = false := by
  rw [Bool.eq_false_iff, Ne, maskEmpty_iff]
  exact fun h => (enabled_false cfg P c).1 (h c) hc

theorem free_false {cfg : Config} {I : Instance} {c : Fin 4} (h : ¬ChannelFree cfg I c) : I.free cfg c = false := by
  rwa [Bool.eq_false_iff, Ne, free_iff_channelFree]

/-- Under an empty mask no mode selects a channel. -/
theorem channelSelect_of_maskEmpty {cfg : Config} {I : Instance} (n : Nat) (h : ∀ c, ¬maskBit cfg I.params c) :
    I.channelSelect cfg n = none := by
  have hoff : ∀ c, enabled cfg I.params c = false := fun c => (enabled_false cfg _ c).2 (h c)
  have hempty : maskEmpty cfg I.params = true := (maskEmpty_iff cfg _).2 hoff
  cases hm : I.params.mode with
  | lead => simp [Instance.channelSelect, hm, Instance.channelSelectLead, hoff]
  | locked => simp [Instance.channelSelect, hm, Instance.channelSelectLocked, hempty]
  | auto => simp [Instance.channelSelect, hm, Instance.channelSelectAuto, hempty]

theorem channelSelect_of_lead {cfg : Config} {I : Instance} (n : Nat) {c : Fin 4} (hm : I.params.mode = .lead)
    (hc : maskBit cfg I.params c) (hleast : ∀ d < c, ¬maskBit cfg I.params d) :
    I.channelSelect cfg n = some (c, I) := by
  have hfind : (channels cfg).find? (enabled cfg I.params) = some c :=
    find?_channels_of hc.1 ((enabled_iff cfg _ c).2 hc) fun d hd => (enabled_false cfg _ d).2 (hleast d hd)
  simp [Instance.channelSelect, hm, Instance.channelSelectLead, hfind]

/-- A note for which Auto mode takes channel 3 first (R236). -/
def TakesNoise (cfg : Config) (I : Instance) (n : Nat) : Prop :=
  I.params.mode = .auto ∧ cfg.highNote < n ∧ ChannelFree cfg I 3

/-- With a channel free Locked and Auto mode leave the voices alone. -/
theorem channelSelect_of_free {cfg : Config} {I : Instance} {n : Nat} {c : Fin 4} (hm : I.params.mode ≠ .lead)
    (hc : ChannelFree cfg I c) (hnoise : TakesNoise cfg I n → c = 3)
    (hleast : ¬TakesNoise cfg I n → ∀ d < c, ¬ChannelFree cfg I d) : I.channelSelect cfg n = some (c, I) := by
  have hempty := maskEmpty_false hc.1
  have hfind (h : ¬TakesNoise cfg I n) : (channels cfg).find? (I.free cfg) = some c :=
    find?_channels_of hc.1.1 ((free_iff_channelFree cfg I c).2 hc) fun d hd => free_false (hleast h d hd)
  cases hmode : I.params.mode with
  | lead => exact absurd hmode hm
  | locked =>
    have hno : ¬TakesNoise cfg I n := fun h => by cases hmode.symm.trans h.1
    simp [Instance.channelSelect, hmode, Instance.channelSelectLocked, hempty, hfind hno]
  | auto =>
    by_cases h : TakesNoise cfg I n
    · obtain rfl := hnoise h
      have hfree : I.free cfg 3 = true := (free_iff_channelFree cfg I 3).2 hc
      simp [Instance.channelSelect, hmode, Instance.channelSelectAuto, hempty, h.2.1, hfree]
    · have hno : ¬(cfg.highNote < n ∧ I.free cfg 3 = true) := fun ⟨hn, hfree⟩ =>
        h ⟨hmode, hn, (free_iff_channelFree cfg I 3).1 hfree⟩
      simp only [Instance.channelSelect, hmode, Instance.channelSelectAuto, hempty, hfind h, if_neg hno,
        Bool.false_eq_true, if_false]

/-- The voices whose channel a steal may take: in Locked mode those on enabled channels (R235), in Auto mode all active
ones (R236). -/
def Stealable (cfg : Config) (I : Instance) (s : Nat) : Prop :=
  (I.voice s).active = true ∧ (I.params.mode = .locked → maskBit cfg I.params (I.voice s).channel)

/-- With no channel free Locked and Auto mode take that of the oldest voice. -/
theorem channelSelect_of_busy {cfg : Config} {I : Instance} (n : Nat) {w : Nat} (hm : I.params.mode ≠ .lead)
    (hmask : ∃ c, maskBit cfg I.params c) (hbusy : ∀ c, ¬ChannelFree cfg I c) (hw : Stealable cfg I w)
    (hold : ∀ j, j ≠ w → Stealable cfg I j → (I.voice w).age < (I.voice j).age) :
    I.channelSelect cfg n = some ((I.voice w).channel, I.deactivate w) := by
  obtain ⟨c, hc⟩ := hmask
  have hempty := maskEmpty_false hc
  have hfree : (channels cfg).find? (I.free cfg) = none :=
    List.find?_eq_none.2 fun c _ => by simp [free_false (hbusy c)]
  have hsteal {p : Voice → Bool} (hp : ∀ s, p (I.voice s) = true ↔ Stealable cfg I s) :
      I.stealChannel p = some ((I.voice w).channel, I.deactivate w) := by
    rw [Instance.stealChannel, oldest_of (active_lt hw.1) ((hp w).2 hw) fun j _ hj h => hold j hj ((hp j).1 h)]
    rfl
  cases hmode : I.params.mode with
  | lead => exact absurd hmode hm
  | locked =>
    have hlocked := hsteal (p := fun v => v.active && enabled cfg I.params v.channel) fun s => by
      simp [Stealable, hmode, enabled_iff]
    simp [Instance.channelSelect, hmode, Instance.channelSelectLocked, hempty, hfree, hlocked]
  | auto =>
    have hauto := hsteal (p := fun v => v.active) fun s => by simp [Stealable, hmode]
    simp [Instance.channelSelect, hmode, Instance.channelSelectAuto, hempty, free_false (hbusy 3), hfree, hauto]

/-! ### Note-on without a double (R238) -/

theorem freeSlot_full {I : Instance} (hall : ∀ j < I.voices.length, (I.voice j).active = true) :
    I.freeSlot = none :=
  List.find?_eq_none.2 fun j hj => by simp [hall j (mem_slots.1 hj)]

/-- SLOT_SELECT of a full pool. -/
theorem slotSelect_full {I : Instance} {k : Nat} (hk : k < I.voices.length)
    (hall : ∀ j < I.voices.length, (I.voice j).active = true)
    (hold : ∀ j < I.voices.length, j ≠ k → (I.voice k).age < (I.voice j).age) :
    I.slotSelect = (k, I.deactivate k) := by
  simp [Instance.slotSelect, freeSlot_full hall, oldest_of (p := fun _ => true) hk rfl fun j hj hne _ => hold j hj hne]

theorem env_voice_deactivate (I : Instance) (s t : Nat) : ((I.deactivate s).voice t).env = (I.voice t).env := by
  rw [voice_deactivate]
  split
  next h => rw [← h, Voice.env_deactivate]
  next => rfl

/-- NOTE_ON_ALLOC without a double, given the channel and the slot selected. -/
theorem noteOnAlloc_of_noDouble {cfg : Config} {I J L : Instance} {n v k : Nat} {c : Fin 4}
    (hsel : I.leadClear.channelSelect cfg n = some (c, J)) (hslot : J.slotSelect = (k, L))
    (hd : NoDouble cfg I.params c) : I.noteOnAlloc cfg n v = L.voiceInit cfg k n v c := by
  simp [Instance.noteOnAlloc, hsel, hslot, unisonWanted_false hd]

/-- A note-on that starts one voice, in slot `k` of the instance `L` it has made of `I` until then. -/
theorem exec_noteOn_voiceInit {s : State} {I L : Instance} {n v : BitVec 7} {c : Fin 4} {k : Nat} (ch : BitVec 4)
    (hs : s.inst = some I)
    (halloc : I.noteOnAlloc s.cfg (transposed I.params n) v.toNat =
      L.voiceInit s.cfg k (transposed I.params n) v.toNat c)
    (hL : L = { I with voices := L.voices }) (hlen : L.voices.length = I.voices.length)
    (hk : k < I.voices.length) (henv : (L.voice k).env = (I.voice k).env) :
    ∃ J, exec (.noteOn ch n v) s = .next { s with inst := some J } ∧ J.voices.length = I.voices.length ∧
      J = { I with voices := J.voices, ageCounter := I.ageCounter + 1 } ∧
      J.voice k = startedVoice s.cfg I.params (I.voice k).env (transposed I.params n) v.toNat c (I.ageCounter + 1) ∧
      ∀ j, j ≠ k → J.voice j = L.voice j := by
  refine ⟨_, exec_noteOn hs ch n v, ?_⟩
  rw [halloc]
  refine ⟨(length_voiceInit ..).trans hlen, by rw [hL]; rfl, ?_, fun j hj => voice_voiceInit_ne _ _ _ _ L hj.symm⟩
  rw [voice_voiceInit_started _ _ _ _ _ (hlen ▸ hk), henv, hL]

/-- Settles O28: no channel is selected, and no voice was cleared. -/
theorem noteOnEmptyMask : Obligations.NoteOnEmptyMask := by
  intro s I ch n v hs hm hmask
  have hsame : I.noteOnAlloc s.cfg (transposed I.params n) v.toNat = I := by
    simp only [Instance.noteOnAlloc, leadClear_of_ne_lead hm, channelSelect_of_maskEmpty _ hmask]
  rw [exec_noteOn hs, hsame, ← hs]

/-- Settles O24: step 1 empties the pool, so the channel is the lowest enabled one and the slot is 0. -/
theorem noteOnLead : Obligations.NoteOnLead := by
  intro s I ch n v hs hm hlen
  by_cases hmask : ∀ c, ¬maskBit s.cfg I.params c
  · have hclear : I.noteOnAlloc s.cfg (transposed I.params n) v.toNat = I.deactivateAll := by
      simp only [Instance.noteOnAlloc, leadClear_of_lead hm,
        channelSelect_of_maskEmpty (I := I.deactivateAll) _ hmask]
    refine ⟨_, exec_noteOn hs ch n v, ?_⟩
    rw [hclear]
    exact ⟨length_deactivateAll I, fun k _ => voice_deactivateAll I k, fun c hc _ => absurd hc (hmask c),
      fun _ => ⟨voice_deactivateAll I 0, rfl⟩⟩
  · obtain ⟨c, hc, hleast⟩ : ∃ c, maskBit s.cfg I.params c ∧ ∀ d, maskBit s.cfg I.params d → ¬d < c :=
      WellFounded.has_min wellFounded_lt {c | maskBit s.cfg I.params c} (not_forall_not.1 hmask)
    have hsel : I.leadClear.channelSelect s.cfg (transposed I.params n) = some (c, I.deactivateAll) := by
      rw [leadClear_of_lead hm]
      exact channelSelect_of_lead _ hm hc fun d hd h => hleast d h hd
    have hslot : I.deactivateAll.slotSelect = (0, I.deactivateAll) := slotSelect_free (by simpa) (by simp) (by simp)
    obtain ⟨J, hexec, hJlen, hframe, hstart, hkept⟩ := exec_noteOn_voiceInit ch hs
      (noteOnAlloc_of_noDouble hsel hslot (.inl hm)) rfl (length_deactivateAll I) hlen (by simp)
    refine ⟨J, hexec, hJlen, fun k hk => (hkept k hk).trans (voice_deactivateAll I k), fun d hd hlow => ?_,
      fun h => absurd hc (h c)⟩
    obtain rfl : d = c := le_antisymm (not_lt.1 fun h => hlow c h hc) (not_lt.1 (hleast d hd))
    exact ⟨hstart, hframe⟩

/-- Settles O25: the channel selected deactivates no voice, and the voice started takes the place of the one that
SLOT_SELECT deactivates. -/
theorem noteOnTakesFreeChannel : Obligations.NoteOnTakesFreeChannel := by
  intro s I ch n v c k hs hm hc hnoise hleast hd hk hslot
  have hsel : I.leadClear.channelSelect s.cfg (transposed I.params n) = some (c, I) := by
    rw [leadClear_of_ne_lead hm]
    exact channelSelect_of_free hm hc hnoise hleast
  rcases hslot with ⟨hoff, hon⟩ | hfull
  · exact exec_noteOn_voiceInit ch hs (noteOnAlloc_of_noDouble hsel (slotSelect_free hk hoff hon) hd) rfl rfl hk rfl
  · have hslot := slotSelect_full hk (fun j hj => (hfull j hj).1) fun j hj => (hfull j hj).2
    obtain ⟨J, hexec, hlen, hframe, hstart, hkept⟩ := exec_noteOn_voiceInit ch hs
      (noteOnAlloc_of_noDouble hsel hslot hd) rfl (length_deactivate I k) hk (env_voice_deactivate I k k)
    refine ⟨J, hexec, hlen, hframe, hstart, fun j hj => ?_⟩
    rw [hkept j hj, voice_deactivate, if_neg hj.symm]

/-- Settles O26: the oldest voice is deactivated before the slot is selected, so its slot may be the one. -/
theorem noteOnStealsOldest : Obligations.NoteOnStealsOldest := by
  intro s I ch n v w k hs hm hmask hbusy hactive hlocked hold hd hk hoff hon
  have hsel : I.leadClear.channelSelect s.cfg (transposed I.params n) =
      some ((I.voice w).channel, I.deactivate w) := by
    rw [leadClear_of_ne_lead hm]
    exact channelSelect_of_busy _ hm hmask hbusy ⟨hactive, hlocked⟩ fun j hj h => hold j hj h.1 h.2
  have hkept {j : Nat} (hj : j ≠ w) : (I.deactivate w).voice j = I.voice j := by
    rw [voice_deactivate, if_neg hj.symm]
  have hslot : (I.deactivate w).slotSelect = (k, I.deactivate w) := by
    refine slotSelect_free (by simpa) ?_ fun j hj => by rw [hkept (hon j hj).1]; exact (hon j hj).2
    rcases hoff with rfl | hoff
    · simp
    · rw [voice_deactivate]
      split <;> simp [hoff]
  obtain ⟨J, hexec, hlen, hframe, hstart, hrest⟩ := exec_noteOn_voiceInit ch hs
    (noteOnAlloc_of_noDouble hsel hslot hd) rfl (length_deactivate I w) hk (env_voice_deactivate I w k)
  refine ⟨J, hexec, hlen, hframe, hstart, fun h => ?_, fun j hjk hjw => (hrest j hjk).trans (hkept hjw)⟩
  rw [hrest w h.symm, voice_deactivate, if_pos rfl]
  rfl

/-! ### The unison double (R239) -/

/-- The instance with another detune. -/
def Instance.withDetune (d : Nat) (I : Instance) : Instance := { I with params := { I.params with detune := d } }

section
variable (cfg : Config) (d : Nat) (I : Instance)

@[simp] theorem mode_withDetune : (I.withDetune d).params.mode = I.params.mode := rfl
@[simp] theorem enabled_withDetune : enabled cfg (I.withDetune d).params = enabled cfg I.params := rfl
@[simp] theorem maskEmpty_withDetune : maskEmpty cfg (I.withDetune d).params = maskEmpty cfg I.params := rfl
@[simp] theorem free_withDetune : (I.withDetune d).free cfg = I.free cfg := rfl
@[simp] theorem voice_withDetune (s : Nat) : (I.withDetune d).voice s = I.voice s := rfl
@[simp] theorem voices_withDetune : (I.withDetune d).voices = I.voices := rfl
@[simp] theorem ageCounter_withDetune : (I.withDetune d).ageCounter = I.ageCounter := rfl
@[simp] theorem oldest_withDetune (p : Voice → Bool) : (I.withDetune d).oldest p = I.oldest p := rfl
@[simp] theorem freeSlot_withDetune : (I.withDetune d).freeSlot = I.freeSlot := rfl
@[simp] theorem deactivate_withDetune (s : Nat) :
    (I.withDetune d).deactivate s = (I.deactivate s).withDetune d := rfl

@[simp] theorem stealChannel_withDetune (p : Voice → Bool) :
    (I.withDetune d).stealChannel p = (I.stealChannel p).map fun r => (r.1, r.2.withDetune d) := by
  simp [Instance.stealChannel, Function.comp_def]

/-- No channel selector reads the detune. -/
theorem channelSelect_withDetune (n : Nat) :
    (I.withDetune d).channelSelect cfg n = (I.channelSelect cfg n).map fun r => (r.1, r.2.withDetune d) := by
  unfold Instance.channelSelect
  rw [mode_withDetune]
  cases I.params.mode with
  | lead => simp [Instance.channelSelectLead, Function.comp_def]
  | locked =>
    simp only [Instance.channelSelectLocked, maskEmpty_withDetune, free_withDetune, enabled_withDetune,
      stealChannel_withDetune]
    split
    · rfl
    · cases (channels cfg).find? (I.free cfg) <;> rfl
  | auto =>
    simp only [Instance.channelSelectAuto, maskEmpty_withDetune, free_withDetune, stealChannel_withDetune]
    split
    · rfl
    · split
      · rfl
      · cases (channels cfg).find? (I.free cfg) <;> rfl

/-- SLOT_SELECT does not read the detune. -/
theorem slotSelect_withDetune :
    (I.withDetune d).slotSelect = (I.slotSelect.1, I.slotSelect.2.withDetune d) := by
  unfold Instance.slotSelect
  rw [freeSlot_withDetune]
  cases I.freeSlot <;> rfl

end

/-- The instance after the main voice of a note-on in Locked and Auto mode, given the channel selected (R238 step 4). -/
def Instance.mainVoice (cfg : Config) (n v : Nat) (c : Fin 4) (J : Instance) : Instance :=
  J.slotSelect.2.voiceInit cfg J.slotSelect.1 n v c

/-- Without detune a note-on ends with its main voice. -/
theorem noteOnAlloc_withDetune_zero {cfg : Config} {n v : Nat} {I J : Instance} {c : Fin 4}
    (hm : I.params.mode ≠ .lead) (hsel : I.channelSelect cfg n = some (c, J)) :
    (I.withDetune 0).noteOnAlloc cfg n v = (J.mainVoice cfg n v c).withDetune 0 := by
  refine noteOnAlloc_of_noDouble ?_ (slotSelect_withDetune 0 J) (.inr (.inl rfl))
  rw [leadClear_of_ne_lead (by simpa), channelSelect_withDetune, hsel]
  rfl

theorem noteOnPart_mainVoice {cfg : Config} {n v : Nat} {I J : Instance} {c : Fin 4} (hm : I.params.mode ≠ .lead)
    (hsel : I.channelSelect cfg n = some (c, J)) : NoteOnPart cfg n v (· = c) 1 I (J.mainVoice cfg n v c) :=
  (((NoteOnPart.refl I).channelSelect (fun h => absurd h hm) hsel).slotSelect.mono fun _ => False.elim).voiceInit _ rfl

/-- Of an age not given out before, an active voice is the one just started. -/
theorem Reallocated.channel_of_new {cfg : Config} {P : Params} {n v a b : Nat} {ch : Fin 4 → Prop} {old now : Voice}
    (h : Reallocated cfg P n v ch a b old now) (hold : old.active = true → old.age ≤ a) (hage : a < now.age)
    (hactive : now.active = true) : ch now.channel := by
  rcases h with rfl | rfl | ⟨c, age, hc, -, -, rfl⟩
  · exact absurd (hold hactive) (not_le.2 hage)
  · cases hactive
  · exact hc

/-- Where the conditions of R238 step 5 hold, AUTO_UNISON follows the main voice. -/
theorem noteOnAlloc_of_unisonWanted {cfg : Config} {n v : Nat} {I J : Instance} {c : Fin 4}
    (hm : I.params.mode ≠ .lead) (hsel : I.channelSelect cfg n = some (c, J))
    (hwanted : unisonWanted cfg I.params c = true) :
    I.noteOnAlloc cfg n v = (J.mainVoice cfg n v c).autoUnison cfg n v := by
  simp only [Instance.noteOnAlloc, leadClear_of_ne_lead hm, hsel, hwanted, if_true]
  rfl

/-- AUTO_UNISON with an inactive slot. -/
theorem autoUnison_of_inactive {cfg : Config} {n v d : Nat} {I : Instance} (hd : d < I.voices.length)
    (hoff : (I.voice d).active = false) (hon : ∀ j < d, (I.voice j).active = true) :
    I.autoUnison cfg n v = (I.mapVoices Voice.leaveChannel1).voiceInit cfg d n v 1 := by
  have hslot : I.freeSlot = some d := find?_slots_of hd (by simpa) fun j hj => by simp [hon j hj]
  simp [Instance.autoUnison, hslot]

/-- AUTO_UNISON of a full pool. -/
theorem autoUnison_full {cfg : Config} {n v : Nat} {I : Instance}
    (hall : ∀ j < I.voices.length, (I.voice j).active = true) : I.autoUnison cfg n v = I := by
  simp [Instance.autoUnison, freeSlot_full hall]

/-- The double in its slot, and the other voices, of which those on channel 1 are deactivated (R239). -/
theorem voice_double {cfg : Config} {n v d : Nat} {I : Instance} (hd : d < I.voices.length)
    (hoff : (I.voice d).active = false) :
    ((I.mapVoices Voice.leaveChannel1).voiceInit cfg d n v 1).voice d =
        startedVoice cfg I.params (I.voice d).env n v 1 (I.ageCounter + 1) ∧
      ∀ j, j ≠ d → ((I.mapVoices Voice.leaveChannel1).voiceInit cfg d n v 1).voice j =
        if (I.voice j).active = true ∧ (I.voice j).channel = 1 then { I.voice j with active := false }
        else I.voice j := by
  refine ⟨?_, fun j hj => ?_⟩
  · rw [voice_voiceInit_started _ _ _ _ _ (by simpa), voice_leaveChannel1, hoff]
    rfl
  · rw [voice_voiceInit_ne _ _ _ _ _ hj.symm, voice_leaveChannel1]
    simp [Voice.deactivate]

/-- Settles O27: no selector reads the detune, so both note-ons make the same main voice, and the double comes after
it. -/
theorem noteOnMakesDouble : Obligations.NoteOnMakesDouble := by
  intro s I K ch n v k hs hm hdetune h0 h1 hexec hage hactive hchannel hctr hages
  obtain rfl : (I.withDetune 0).noteOnAlloc s.cfg (transposed I.params n) v.toNat = K := by
    rw [exec_noteOn rfl] at hexec
    injection hexec with h
    exact Option.some.inj (congrArg State.inst h)
  refine ⟨_, exec_noteOn hs ch n v, ?_⟩
  cases hsel : I.channelSelect s.cfg (transposed I.params n) with
  | none =>
    have hsame : (I.withDetune 0).noteOnAlloc s.cfg (transposed I.params n) v.toNat = I.withDetune 0 := by
      simp [Instance.noteOnAlloc, leadClear_of_ne_lead (I := I.withDetune 0) hm, channelSelect_withDetune, hsel]
    rw [hsame, ageCounter_withDetune] at hctr
    omega
  | some r =>
    obtain ⟨c, J⟩ := r
    have hmain := noteOnPart_mainVoice (v := v.toNat) hm hsel
    rw [noteOnAlloc_withDetune_zero hm hsel, voice_withDetune] at hage hactive hchannel
    obtain rfl : 0 = c := by
      rw [← hchannel]
      exact (hmain.voice k).channel_of_new (hages k) (by omega) hactive
    have hwanted : unisonWanted s.cfg I.params 0 = true := by
      simp [unisonWanted, bothPulses, hm, hdetune, (enabled_iff ..).2 h0, (enabled_iff ..).2 h1]
    rw [noteOnAlloc_withDetune_zero hm hsel, noteOnAlloc_of_unisonWanted hm hsel hwanted]
    generalize J.mainVoice s.cfg (transposed I.params n) v.toNat 0 = M at hmain
    have hframe : M = { I with voices := M.voices, ageCounter := I.ageCounter + 1 } :=
      hmain.frame.trans (by rw [hmain.age])
    obtain ⟨m, -, hpart⟩ := hmain.autoUnison
    simp only [voices_withDetune, voice_withDetune]
    refine ⟨hpart.length, fun d hd hoff hon => ?_, fun hall => ?_⟩
    · obtain ⟨hdouble, hrest⟩ := voice_double (cfg := s.cfg) (n := transposed I.params n) (v := v.toNat) hd hoff
      rw [autoUnison_of_inactive hd hoff hon]
      refine ⟨by rw [hframe]; rfl, ?_, hrest⟩
      rw [hdouble, hmain.params, hmain.age]
    · rw [autoUnison_full hall]
      exact ⟨hframe, fun j => rfl⟩

end Sys2Proof.Machine
end

section
/-! PROOFS. The number of active voices (O29), from their channels being distinct through a note-on of any velocity; and
the note-offs (O30, O31). -/

namespace Sys2Proof.Machine

/-! ### At most one voice on each channel (R243) -/

/-- R54 and R243 (a): an active voice has one of the channels there are, and no other active voice has it. -/
structure OnePerChannel (cfg : Config) (I : Instance) : Prop where
  below : ∀ s, (I.voice s).active = true → (I.voice s).channel.val < cfg.nChannels
  distinct : ∀ s t, (I.voice s).active = true → (I.voice t).active = true →
    (I.voice s).channel = (I.voice t).channel → s = t

/-- Each voice still active in `J` is as it was in `I`: what an operation that only deactivates voices does. -/
def Deactivates (I J : Instance) : Prop := ∀ s, (J.voice s).active = true → J.voice s = I.voice s

theorem deactivates_deactivate (I : Instance) (t : Nat) : Deactivates I (I.deactivate t) := by
  intro s hs
  rw [voice_deactivate] at hs ⊢
  split at hs
  · cases hs
  next h => rw [if_neg h]

theorem deactivates_leaveChannel1 (I : Instance) : Deactivates I (I.mapVoices Voice.leaveChannel1) := by
  intro s hs
  rw [voice_leaveChannel1] at hs ⊢
  split at hs
  · cases hs
  next h => rw [if_neg h]

theorem deactivates_leadClear (I : Instance) : Deactivates I I.leadClear := by
  intro s hs
  unfold Instance.leadClear at hs ⊢
  split at hs
  · simp at hs
  next h => rw [if_neg h]

theorem deactivates_slotSelect (I : Instance) : Deactivates I I.slotSelect.2 := by
  rcases slotSelect_snd I with e | ⟨t, e⟩ <;> rw [e]
  · exact fun _ _ => rfl
  · exact deactivates_deactivate I t

theorem busy_of_deactivates {I J : Instance} {c : Fin 4} (hd : Deactivates I J) (h : I.busy c = false) :
    J.busy c = false := by
  rw [busy_false_iff] at h ⊢
  intro s hs
  have e := hd s hs
  rw [e] at hs ⊢
  exact h s hs

theorem busy_leaveChannel1 (I : Instance) : (I.mapVoices Voice.leaveChannel1).busy 1 = false := by
  rw [busy_false_iff]
  intro s hs hc
  have e := deactivates_leaveChannel1 I s hs
  rw [e] at hc
  have hactive : (I.voice s).active = true := e ▸ hs
  rw [voice_leaveChannel1, if_pos (by simp [hactive, hc])] at hs
  cases hs

section
variable {cfg : Config} {I J : Instance} {c : Fin 4}

theorem OnePerChannel.of_deactivates (h : OnePerChannel cfg I) (hd : Deactivates I J) : OnePerChannel cfg J := by
  refine ⟨fun s hs => ?_, fun s t hs ht hc => ?_⟩
  · have e := hd s hs
    rw [e] at hs ⊢
    exact h.below s hs
  · rw [hd s hs, hd t ht] at hc
    exact h.distinct s t (hd s hs ▸ hs) (hd t ht ▸ ht) hc

/-- The channel selected has no active voice any more. -/
theorem OnePerChannel.channelSelect {n : Nat} (h : OnePerChannel cfg I)
    (hlead : I.params.mode = .lead → ∀ s, (I.voice s).active = false) (hsel : I.channelSelect cfg n = some (c, J)) :
    OnePerChannel cfg J ∧ c.val < cfg.nChannels ∧ J.busy c = false := by
  rcases channelSelect_cases hlead hsel with ⟨rfl, henabled, hfree⟩ | ⟨w, rfl, rfl, hw⟩
  · exact ⟨h, enabled_lt henabled, hfree⟩
  · refine ⟨h.of_deactivates (deactivates_deactivate I w), h.below w hw, (busy_false_iff _ _).2 fun s hs hc => ?_⟩
    rw [voice_deactivate] at hs hc
    split at hs
    · cases hs
    next hne =>
      rw [if_neg hne] at hc
      exact hne (h.distinct w s hw hs hc.symm)

/-- A voice after VOICE_INIT is the one started or as before. -/
theorem voice_voiceInit_cases (cfg : Config) (s n v : Nat) (c : Fin 4) (I : Instance) (t : Nat) :
    (t = s ∧ ((I.voiceInit cfg s n v c).voice t).channel = c) ∨ (I.voiceInit cfg s n v c).voice t = I.voice t := by
  by_cases h : s = t ∧ t < I.voices.length
  · obtain ⟨rfl, hs⟩ := h
    exact .inl ⟨rfl, by rw [voice_voiceInit_self _ _ _ _ _ hs]⟩
  · refine .inr ?_
    show (I.setVoice s _).voice t = _
    rw [voice_setVoice, if_neg h]

theorem OnePerChannel.voiceInit (h : OnePerChannel cfg I) (hc : c.val < cfg.nChannels) (hfree : I.busy c = false)
    (s n v : Nat) : OnePerChannel cfg (I.voiceInit cfg s n v c) := by
  rw [busy_false_iff] at hfree
  have hvoice := voice_voiceInit_cases cfg s n v c I
  refine ⟨fun t ht => ?_, fun t u ht hu htu => ?_⟩
  · rcases hvoice t with ⟨-, e⟩ | e
    · rwa [e]
    · rw [e] at ht ⊢
      exact h.below t ht
  · rcases hvoice t with ⟨rfl, et⟩ | et <;> rcases hvoice u with ⟨rfl, eu⟩ | eu
    · rfl
    · rw [et, eu] at htu
      exact absurd htu.symm (hfree u (eu ▸ hu))
    · rw [et, eu] at htu
      exact absurd htu (hfree t (et ▸ ht))
    · rw [et, eu] at htu
      exact h.distinct t u (et ▸ ht) (eu ▸ hu) htu

theorem OnePerChannel.autoUnison (h : OnePerChannel cfg I) (h1 : 1 < cfg.nChannels) (n v : Nat) :
    OnePerChannel cfg (I.autoUnison cfg n v) := by
  unfold Instance.autoUnison
  split
  · exact h
  next s _ =>
    exact (h.of_deactivates (deactivates_leaveChannel1 I)).voiceInit (c := 1) h1 (busy_leaveChannel1 I) s n v

/-- NOTE_ON_ALLOC keeps R243 (a), whatever the velocity. -/
theorem OnePerChannel.noteOnAlloc (h : OnePerChannel cfg I) (n v : Nat) :
    OnePerChannel cfg (I.noteOnAlloc cfg n v) := by
  have hclear := h.of_deactivates (deactivates_leadClear I)
  unfold Instance.noteOnAlloc
  split
  · exact hclear
  next c J hsel =>
    obtain ⟨hJ, hc, hfree⟩ := hclear.channelSelect (inactive_leadClear I) hsel
    have hslot := deactivates_slotSelect J
    have hmain := (hJ.of_deactivates hslot).voiceInit hc (busy_of_deactivates hslot hfree) J.slotSelect.1 n v
    simp only
    split
    next hwanted =>
      simp only [unisonWanted, bothPulses, Bool.and_eq_true] at hwanted
      obtain ⟨⟨-, -, h1⟩, -⟩ := hwanted
      exact hmain.autoUnison (enabled_lt h1) n v
    next => exact hmain

/-- Among any set of channels there are at most as many active voices as channels there are. -/
theorem OnePerChannel.length_filter_le (h : OnePerChannel cfg I) (q : Fin 4 → Bool) :
    (I.slots.filter fun k => (I.voice k).active && q (I.voice k).channel).length ≤
      ((channels cfg).filter q).length := by
  have hnodup : ((I.slots.filter fun k => (I.voice k).active && q (I.voice k).channel).map
      fun k => (I.voice k).channel).Nodup := by
    refine List.Nodup.map_on (fun s hs t ht hc => ?_) (List.nodup_range.filter _)
    simp only [List.mem_filter, Bool.and_eq_true] at hs ht
    exact h.distinct s t hs.2.1 ht.2.1 hc
  have hsub : (I.slots.filter fun k => (I.voice k).active && q (I.voice k).channel).map
      (fun k => (I.voice k).channel) ⊆ (channels cfg).filter q := by
    intro c hc
    simp only [List.mem_map, List.mem_filter, Bool.and_eq_true] at hc
    obtain ⟨s, ⟨-, hs, hq⟩, rfl⟩ := hc
    exact List.mem_filter.2 ⟨mem_channels.2 (h.below s hs), hq⟩
  simpa using (hnodup.subperm hsub).length_le

end

theorem InstanceOk.onePerChannel {cfg : Config} {I : Instance} (h : InstanceOk cfg I) : OnePerChannel cfg I :=
  ⟨h.channelBelow, h.channels⟩

theorem length_channels_le (cfg : Config) : (channels cfg).length ≤ cfg.nChannels := by
  have hnodup : ((channels cfg).map Fin.val).Nodup := (channels_sorted cfg).nodup.map Fin.val_injective
  have hsub : (channels cfg).map Fin.val ⊆ List.range cfg.nChannels := by
    intro k hk
    obtain ⟨c, hc, rfl⟩ := List.mem_map.1 hk
    exact List.mem_range.2 (mem_channels.1 hc)
  simpa using (hnodup.subperm hsub).length_le

/-- Settles O29: the channels of the active voices are distinct, before and after the note-on. -/
theorem allocationLimits : Obligations.AllocationLimits := by
  intro s t I J hinv hs
  have hI := hinv.inst I hs
  have hcount : (I.slots.filter fun k => (I.voice k).active).length ≤ s.cfg.nChannels := by
    simpa using (hI.onePerChannel.length_filter_le fun _ => true).trans
      ((List.length_filter_le ..).trans (length_channels_le s.cfg))
  refine ⟨hcount, fun hlt => ?_, fun ch n v hexec ht => ⟨fun hm j k hj hk => ?_, fun _ => ?_⟩⟩
  · by_contra! hall
    have hfull : I.slots.filter (fun k => (I.voice k).active) = I.slots :=
      List.filter_eq_self.2 fun k hk => by simpa using hall k (hI.pool ▸ mem_slots.1 hk)
    rw [hfull, Instance.slots, List.length_range, hI.pool] at hcount
    omega
  · obtain ⟨J', hexec', -, hoff, -⟩ := noteOnLead s I ch n v hs hm (hI.slotThere hinv.config)
    obtain rfl := Host.Outcome.next.inj (hexec.symm.trans hexec')
    obtain rfl := Option.some.inj ht
    have hzero {i : Nat} (hi : (J'.voice i).active = true) : i = 0 := by
      by_contra h
      rw [hoff i h] at hi
      cases hi
    rw [hzero hj, hzero hk]
  · obtain rfl := Host.Outcome.next.inj (hexec.symm.trans (exec_noteOn hs ch n v))
    obtain rfl := Option.some.inj ht
    exact (hI.onePerChannel.noteOnAlloc ..).length_filter_le _

/-! ### Note-off (R240, R241) -/

/-- The note-off of a voice (R240): gate-off (R164) and no longer active. -/
theorem Voice.release_eq (v : Voice) :
    v.release = { v with
      active := false
      env := if v.env.stage = .idle then v.env else { v.env with stage := .release } } := rfl

/-- Settles O30: NOTE_ON with velocity 0 is the same update as NOTE_OFF. -/
theorem noteOffReleasesMatches : Obligations.NoteOffReleasesMatches := by
  intro s I ch n v hs
  refine ⟨I.noteOffRelease (transposed I.params n), ?_, ?_, rfl, length_noteOffRelease I _, fun k => ?_⟩
  · rw [exec_update rfl, onInstance_some _ hs, xnote_eq_transposed]
  · rw [exec_update rfl, onInstance_some _ hs, xnote_eq_transposed]
  · simp [voice_noteOffRelease, Voice.release_eq]

/-- Settles O31. -/
theorem allNotesOffReleasesAll : Obligations.AllNotesOffReleasesAll := by
  intro s I ch x hs
  refine ⟨I.allVoicesOff, ?_, rfl, length_allVoicesOff I, fun k => ?_⟩
  · rw [exec_update rfl, onInstance_some _ hs]
  · rw [voice_allVoicesOff, Voice.release_eq]

end Sys2Proof.Machine
end

section
/-! PROOFS. The bytes of the writes: the period functions (O55), the silence and init writes (O54) and the NES
encoder (O52). The model lays bit fields out with shifts and ORs; fields that do not overlap add up. -/

namespace Sys2Proof.Machine

/-! ### The period functions (R271, R301) -/

/-- RND adds the 1/2 before the floor. -/
theorem toNat_clamp_rnd {x y : Rat} (h : x + 1 / 2 = y) :
    ((clamp (rnd x) 0 2047).toNat : Int) = max 0 (min 2047 ⌊y⌋) := by
  rw [toNat_clamp_11bit, rnd, h]

/-- Settles O55: each function is a clamped RND (`toNat_clamp_rnd`), and at 440 Hz it is computed. -/
theorem periodFunctions : Obligations.PeriodFunctions := by
  refine ⟨fun cfg hz _ => ⟨?_, ?_, ?_, ?_⟩, fun cfg hnes hgb => ?_⟩
  · exact toNat_clamp_rnd (by ring)
  · exact toNat_clamp_rnd (by ring)
  · exact toNat_clamp_rnd (by ring)
  · exact toNat_clamp_rnd (by ring)
  · simp only [pulsePeriod, triPeriod, sqFreq, waveFreq, hnes, hgb]
    decide +kernel

theorem toNat_clamp_11bit_le (z : Int) : (clamp z 0 2047).toNat ≤ 2047 := by
  have h := toNat_clamp_11bit z
  omega

theorem pulsePeriod_le (cfg : Config) (f : Rat) : pulsePeriod cfg f ≤ 2047 := toNat_clamp_11bit_le _

theorem triPeriod_le (cfg : Config) (f : Rat) : triPeriod cfg f ≤ 2047 := toNat_clamp_11bit_le _

/-! ### The bytes of the NES registers (R124) -/

theorem highBits_eq_div {p : Nat} (hp : p ≤ 2047) : highBits p = p / 256 := by
  unfold highBits
  omega

/-- Constant volume and length halt stand above the 4 bits of the volume. -/
theorem or_volume_eq_add {q : Nat} (hq : q ≤ 15) : 0x30 ||| q = 48 + q :=
  (Nat.two_pow_add_eq_or_of_lt (i := 4) (by omega) 3).symm

theorem nesPulseCtrl_eq (P : Params) {q : Nat} (hq : q ≤ 15) :
    nesPulseCtrl P q = BitVec.ofNat 8 (64 * P.duty + 48 + q) := by
  rw [nesPulseCtrl, Nat.or_assoc, or_volume_eq_add hq, ← Nat.shiftLeft_add_eq_or_of_lt (by omega), Nat.shiftLeft_eq,
    Nat.mul_comm, Nat.add_assoc]
  rfl

theorem nesLengthHigh_eq {p : Nat} (hp : p ≤ 2047) : nesLengthHigh p = BitVec.ofNat 8 (8 + p / 256) := by
  have hadd : 8 + highBits p = 8 ||| highBits p := Nat.two_pow_add_eq_or_of_lt (i := 3) (highBits_lt p) 1
  rw [nesLengthHigh, ← hadd, highBits_eq_div hp]
  rfl

theorem nesNoiseCtrl_eq {q : Nat} (hq : q ≤ 15) : nesNoiseCtrl q = BitVec.ofNat 8 (48 + q) := by
  rw [nesNoiseCtrl, or_volume_eq_add hq]
  rfl

theorem nesNoiseMode_eq {cfg : Config} {n : Nat} (P : Params) (hx : nesNoiseIndex cfg n < 16) :
    nesNoiseMode cfg P n = BitVec.ofNat 8 (128 * P.noiseMode + nesNoiseIndex cfg n) := by
  rw [nesNoiseMode, ← Nat.shiftLeft_add_eq_or_of_lt (by omega), Nat.shiftLeft_eq, Nat.mul_comm]
  rfl

theorem nesNoise_getElem? {cfg : Config} {n : Nat} (hn : n < cfg.nesNoise.length) :
    cfg.nesNoise[n]? = some (nesNoiseIndex cfg n) := by
  simp [nesNoiseIndex, hn]

/-! ### The silence and init writes (R279, R280, R311, R312) -/

/-- Settles O54: the silence of a pulse channel is its control byte at volume 0, the other bytes are constants. -/
theorem silenceAndInitWrites : Obligations.SilenceAndInitWrites := by
  intro P _
  have hctrl : nesPulseCtrl P 0 = BitVec.ofNat 8 (64 * P.duty + 48) := nesPulseCtrl_eq P (Nat.zero_le 15)
  rw [← hctrl]
  exact ⟨rfl, rfl, rfl, rfl, rfl, rfl, rfl, rfl, rfl, rfl⟩

/-! ### The NES encoder (R272..R278, R281) -/

theorem nesBase_eq (c : Fin 4) : nesBase c = BitVec.ofNat 16 (0x4000 + 4 * c.val) :=
  (BitVec.ofNat_add ..).symm

theorem encNes_pulse (cfg : Config) (P : Params) {v : Voice} (h : v.channel.val < 2) (f : Rat) (q : Nat)
    (trig : Bool) : encNes cfg P v f q trig = encNesPulse cfg P v.channel f q trig := by
  obtain h0 | h1 : v.channel = 0 ∨ v.channel = 1 := by omega
  · simp only [encNes, h0]
  · simp only [encNes, h1]

theorem encNes_tri (cfg : Config) (P : Params) {v : Voice} (h : v.channel = 2) (f : Rat) (q : Nat) (trig : Bool) :
    encNes cfg P v f q trig = encNesTri cfg f trig := by
  simp only [encNes, h]

/-- Settles O52: the channel selects the encoder, and each byte made of fields is their sum. -/
theorem nesEncoderWrites : Obligations.NesEncoderWrites := by
  intro cfg P w hz q hcfg _ hq hn
  refine ⟨fun hc => ?_, fun hc => ?_, fun hc => ?_⟩
  · simp only [encNes_pulse cfg P hc, encNesPulse, nesBase_eq, nesPulseCtrl_eq P hq,
      nesLengthHigh_eq (pulsePeriod_le cfg hz)]
    exact ⟨rfl, rfl⟩
  · simp only [encNes_tri cfg P hc, encNesTri, nesLengthHigh_eq (triPeriod_le cfg hz)]
    exact ⟨rfl, rfl⟩
  · obtain ⟨-, -, -, -, -, -, -, -, -, -, -, -, -, hlength, hbound, -⟩ := hcfg
    have hx := nesNoiseIndex_lt hbound w.note
    refine ⟨nesNoiseIndex cfg w.note, nesNoise_getElem? (by omega), by omega, ?_⟩
    simp only [encNes_noise cfg P hc, encNesNoise, nesNoiseCtrl_eq hq, nesNoiseMode_eq P hx]
    exact ⟨rfl, rfl⟩

end Sys2Proof.Machine
end

section
/-! PROOFS. The bytes of the Game Boy encoder's writes (O53), with the sums of bit fields of the NES encoder's. -/

namespace Sys2Proof.Machine

/-! ### The bytes of the Game Boy registers (R125) -/

theorem sqFreq_le (cfg : Config) (f : Rat) : sqFreq cfg f ≤ 2047 := toNat_clamp_11bit_le _

theorem waveFreq_le (cfg : Config) (f : Rat) : waveFreq cfg f ≤ 2047 := toNat_clamp_11bit_le _

theorem gbSweep_eq {x : Nat} (hx : x ≤ 127) : byte (x &&& 0x7F) = BitVec.ofNat 8 x :=
  congrArg byte (Nat.and_two_pow_sub_one_of_lt_two_pow (n := 7) (by omega))

theorem byte_shiftLeft_eq (n k : Nat) : byte (n <<< k) = BitVec.ofNat 8 (2 ^ k * n) := by
  rw [Nat.shiftLeft_eq, Nat.mul_comm, byte]

theorem gbVolume_eq (q : Nat) : gbVolume q = BitVec.ofNat 8 (16 * q) := byte_shiftLeft_eq q 4

theorem gbTriggerHigh_eq {x : Nat} (hx : x ≤ 2047) : gbTriggerHigh x = BitVec.ofNat 8 (128 + x / 256) := by
  have hlow : highBits x < 2 ^ 7 := (highBits_lt x).trans (by decide)
  have hadd : 128 + highBits x = 128 ||| highBits x := Nat.two_pow_add_eq_or_of_lt hlow 1
  rw [gbTriggerHigh, ← hadd, highBits_eq_div hx, byte]

theorem gbWaveLevel_eq (q : Nat) :
    gbWaveLevel q = if q = 0 then 0x00 else if q ≤ 4 then 0x60 else if q ≤ 9 then 0x40 else 0x20 := by
  unfold gbWaveLevel waveCode
  split_ifs <;> rfl

/-- R307: the mask clears bit 3 alone, and the noise mode is put there. -/
theorem getLsbD_gbNoiseByte (cfg : Config) {P : Params} (hmode : P.noiseMode ≤ 1) (n i : Nat) :
    (gbNoiseByte cfg P n).getLsbD i =
      if i = 3 then decide (P.noiseMode = 1) else (cfg.gbNoise.getD n 0).getLsbD i := by
  have hmask : ∀ j < 8, ((0xF7 : Nat) : Byte).getLsbD j = decide (j ≠ 3) := by decide
  have hbit : ∀ m ≤ 1, ∀ j < 8, (byte ((m % 2) <<< 3)).getLsbD j = (decide (j = 3) && decide (m = 1)) := by decide
  by_cases hi : i < 8
  · rw [gbNoiseByte, BitVec.getLsbD_or, BitVec.getLsbD_and, hmask i hi, hbit _ hmode i hi]
    by_cases h3 : i = 3 <;> simp [h3]
  · have hge : 8 ≤ i := by omega
    rw [if_neg (by omega), BitVec.getLsbD_of_ge _ _ hge, BitVec.getLsbD_of_ge _ _ hge]

theorem gbNoise_getElem? {cfg : Config} {n : Nat} (hn : n < cfg.gbNoise.length) :
    cfg.gbNoise[n]? = some (cfg.gbNoise.getD n 0) := by
  simp [hn]

theorem wavetables_getElem? {cfg : Config} {P : Params} (h : P.wavetable < cfg.wavetables.length) :
    cfg.wavetables[P.wavetable]? = some (wavetable cfg P) := by
  simp [wavetable, h]

/-- The 16 writes of R305, by the index of each byte. -/
theorem waveRamWrites_eq_zipIdx (table : Vector Byte 16) :
    waveRamWrites table = table.toList.zipIdx.map fun y => (BitVec.ofNat 16 (0xFF30 + y.2), y.1) := by
  have hlist : table.toList = List.ofFn fun i : Fin 16 => table[i] := by
    conv_lhs => rw [← Vector.ofFn_getElem (xs := table), Vector.toList_ofFn]
    rfl
  rw [hlist]
  rfl

/-! ### The Game Boy encoder (R300, R302..R306, R309, R310, R313) -/

theorem gbSquareBase_eq {c : Fin 4} (h : c.val < 2) : gbSquareBase c = BitVec.ofNat 16 (0xFF11 + 5 * c.val) :=
  (by decide : ∀ c : Fin 4, c.val < 2 → gbSquareBase c = BitVec.ofNat 16 (0xFF11 + 5 * c.val)) c h

theorem encGb_square (cfg : Config) (P : Params) {v : Voice} (h : v.channel.val < 2) (f : Rat) (q : Nat)
    (trig : Bool) : encGb cfg P v f q trig = encGbSquare cfg P v.channel f q trig := by
  obtain h0 | h1 : v.channel = 0 ∨ v.channel = 1 := by omega
  · simp only [encGb, h0]
  · simp only [encGb, h1]

theorem encGb_wave (cfg : Config) (P : Params) {v : Voice} (h : v.channel = 2) (f : Rat) (q : Nat) (trig : Bool) :
    encGb cfg P v f q trig = encGbWave cfg P f q trig := by
  simp only [encGb, h]

/-- Settles O53: the channel selects the encoder, and each byte made of fields is their sum. -/
theorem gbEncoderWrites : Obligations.GbEncoderWrites := by
  intro cfg P w hz q hcfg hP _ hn
  refine ⟨fun hc => ?_, fun hc => ?_, fun hc => ?_⟩
  · have hfirst : (w.channel = 0) = (w.channel.val = 0) := propext Fin.ext_iff
    simp only [encGb_square cfg P hc, encGbSquare, gbSquareBase_eq hc, hfirst, gbSweep_eq hP.sweep,
      byte_shiftLeft_eq P.duty, gbVolume_eq, gbTriggerHigh_eq (sqFreq_le cfg hz)]
    exact ⟨rfl, rfl⟩
  · refine ⟨wavetable cfg P, wavetables_getElem? hP.wavetable, ?_⟩
    simp only [encGb_wave cfg P hc, encGbWave, waveRamWrites_eq_zipIdx, gbWaveLevel_eq,
      gbTriggerHigh_eq (waveFreq_le cfg hz)]
    exact ⟨rfl, rfl⟩
  · obtain ⟨-, -, -, -, -, -, -, -, -, -, -, -, -, -, -, hlength, -⟩ := hcfg
    refine ⟨cfg.gbNoise.getD w.note 0, gbNoiseByte cfg P w.note, gbNoise_getElem? (by omega),
      getLsbD_gbNoiseByte cfg hP.noiseMode w.note, ?_⟩
    simp only [encGb_noise cfg P hc, encGbNoise, gbVolume_eq]
    exact ⟨rfl, rfl⟩

end Sys2Proof.Machine
end

section
/-! PROOFS. The block renderer: the quantized volume (O51), the write list in order (O43), its times and its length
(O44), a block without voices (O47) and the samples of any other (O48). -/

namespace Sys2Proof.Machine

/-! ### The quantized volume (R334) -/

/-- Within the ranges the product lies between 0 and 15, so the clamp does nothing. -/
theorem qvol_eq_floor {l : Rat} {vol vel : Nat} (hl0 : 0 ≤ l) (hl1 : l ≤ 1) (hvol : vol ≤ 15) (hvel : vel ≤ 127) :
    (qvol l vol vel : Int) = ⌊l * vol * vel / 127⌋ := by
  have hvolQ : (vol : Rat) ≤ 15 := by exact_mod_cast hvol
  have hvelQ : (vel : Rat) ≤ 127 := by exact_mod_cast hvel
  have hproduct : l * ((vol : Rat) / 15) * ((vel : Rat) / 127) * 15 = l * vol * vel / 127 := by ring
  have hlow : 0 ≤ ⌊l * vol * vel / 127⌋ := Int.floor_nonneg.2 (by positivity)
  have hhigh : ⌊l * vol * vel / 127⌋ ≤ 15 := by
    have hle : l * vol * vel ≤ 1 * 15 * 127 := by gcongr
    refine Int.floor_le_iff.2 ?_
    push_cast
    linarith
  rw [qvol, hproduct, clamp]
  omega

/-- The volume of level 0 is 0 whatever the parameter and the velocity. -/
theorem qvol_zero (vol vel : Nat) : qvol 0 vol vel = 0 := by
  simp [qvol, clamp]

/-- Settles O51: within the ranges by `qvol_eq_floor`, which also gives the two examples of R334. -/
theorem quantizedVolume : Obligations.QuantizedVolume := by
  refine ⟨fun l vol vel => qvol_eq_floor, qvol_le, qvol_zero, ?_, ?_⟩
  · exact Int.ofNat.inj ((qvol_eq_floor zero_le_one le_rfl le_rfl le_rfl).trans (by norm_num))
  · exact Int.ofNat.inj ((qvol_eq_floor zero_le_one le_rfl le_rfl (by decide)).trans (by norm_num))

/-! ### The write list in order (R345) -/

/-- A loop over the channels there are, as one over all four. -/
theorem flatMap_channels {α : Type} (cfg : Config) (f : Fin 4 → List α) :
    (channels cfg).flatMap f =
      ([0, 1, 2, 3] : List (Fin 4)).flatMap fun c => if c.val < cfg.nChannels then f c else [] := by
  unfold channels
  induction ([0, 1, 2, 3] : List (Fin 4)) with
  | nil => rfl
  | cons c cs ih => by_cases hc : c.val < cfg.nChannels <;> simp [hc, ih]

/-- An encoder reads nothing of a voice that step 2 writes. -/
theorem voiceWrites_advance (cfg : Config) (I : Instance) (frames : Nat) (level : Rat) (v : Voice) :
    voiceWrites cfg (I.advanced frames) level (v.advance frames) = voiceWrites cfg I level v := by
  rw [voiceWrites_congr (chip_advanced ..) (params_advanced ..) (bend_advanced ..) (lfoPhase_advanced ..)]
  unfold Voice.advance
  split <;> rfl

/-- Step 2 silences the channels of the voices that end. -/
theorem retireWrites_advanced (cfg : Config) (I : Instance) :
    retireWrites I (I.advanced cfg.fpb) = I.slots.flatMap fun k =>
      if (I.voice k).active = true ∧ ((I.voice k).env.advance cfg.fpb).stage = .idle then
        silenceWrites I.chip I.params (I.voice k).channel
      else [] := by
  unfold retireWrites
  refine List.flatMap_congr fun k _ => if_congr ?_ rfl rfl
  rw [Bool.and_eq_true, Bool.not_eq_true', ← Bool.not_eq_true, survives_iff]
  tauto

/-- Step 3 encodes the voices that survive, each at its level before step 2. -/
theorem encodeWrites_advanced (cfg : Config) (level : Nat → Rat) (I : Instance) :
    encodeWrites cfg level (I.advanced cfg.fpb) = I.slots.flatMap fun k =>
      if (I.voice k).active = true ∧ ((I.voice k).env.advance cfg.fpb).stage ≠ .idle then
        voiceWrites cfg I (level k) (I.voice k)
      else [] := by
  unfold encodeWrites
  rw [slots_congr (length_advanced cfg.fpb I)]
  refine List.flatMap_congr fun k _ => if_congr (survives_iff cfg I k) ?_ rfl
  rw [voice_advanced, voiceWrites_advance]

theorem busy_advanced (cfg : Config) (I : Instance) (c : Fin 4) :
    (I.advanced cfg.fpb).busy c = true ↔ ∃ k, Survives cfg I k ∧ (I.voice k).channel = c := by
  rw [busy_iff]
  exact exists_congr fun k => and_congr (survives_iff cfg I k) (by rw [voice_advanced, channel_advance])

/-- Step 4 silences the channels without a voice that survives. -/
theorem idleWrites_advanced (cfg : Config) (I : Instance) :
    idleWrites cfg (I.advanced cfg.fpb) = ([0, 1, 2, 3] : List (Fin 4)).flatMap fun c =>
      if c.val < cfg.nChannels ∧ ∀ k ∈ I.slots, (I.voice k).active = true →
        ((I.voice k).env.advance cfg.fpb).stage ≠ .idle → (I.voice k).channel ≠ c
      then silenceWrites I.chip I.params c else [] := by
  unfold idleWrites
  rw [flatMap_channels]
  refine List.flatMap_congr fun c _ => ?_
  have hbusy : (∀ k ∈ I.slots, (I.voice k).active = true →
      ((I.voice k).env.advance cfg.fpb).stage ≠ .idle → (I.voice k).channel ≠ c) ↔
      ¬ (I.advanced cfg.fpb).busy c = true := by
    rw [busy_advanced]
    exact ⟨fun h ⟨k, hk, hc⟩ => h k (mem_slots.2 (active_lt hk.1)) hk.1 hk.2 hc,
      fun h k _ hactive hlive hc => h ⟨k, ⟨hactive, hlive⟩, hc⟩⟩
  rw [ite_and, if_congr hbusy rfl rfl, ite_not]
  rfl

/-- Settles O43: the write list is `blockWrites` with its times, and its four parts are the steps' writes. -/
theorem renderWriteOrder : Obligations.RenderWriteOrder := by
  intro s I f hs hf
  obtain ⟨-, -, -, -, -, -, -, -, hwrites, -⟩ := renderBlock_spec s.cfg s.cfg.fpb I
  refine ⟨_, _, exec_render hs hf, ?_⟩
  rw [hwrites, map_stamp, blockWrites, retireWrites_advanced, encodeWrites_advanced, idleWrites_advanced]
  rfl

/-! ### The number of writes (R459) -/

/-- The most writes a channel can cause in a block: its encoder's when it triggers. -/
def channelLoad (chip : Chip) (c : Fin 4) : Nat := (encoderAddresses chip c true).length

theorem length_silenceWrites (chip : Chip) (P : Params) (c : Fin 4) : (silenceWrites chip P c).length = 1 := by
  simpa using congrArg List.length (addresses_silenceWrites chip P c)

theorem length_voiceWrites_le (cfg : Config) (I : Instance) (level : Rat) (v : Voice) :
    (voiceWrites cfg I level v).length ≤ channelLoad I.chip v.channel := by
  have hlength : (voiceWrites cfg I level v).length = (encoderAddresses I.chip v.channel (!v.triggered)).length := by
    rw [← addresses_voiceWrites cfg I level v, List.length_map]
  have hlater : ∀ chip c trig, (encoderAddresses chip c trig).length ≤ channelLoad chip c := by
    intro chip
    cases chip <;> decide
  exact hlength.trans_le (hlater ..)

theorem length_flatMap_slots {α : Type} (I : Instance) (f : Nat → List α) :
    (I.slots.flatMap f).length = ∑ k ∈ Finset.range I.voices.length, (f k).length := List.length_flatMap ..

theorem length_flatMap_channels_le {α : Type} (cfg : Config) (f : Fin 4 → List α) :
    ((channels cfg).flatMap f).length ≤ ∑ c, (f c).length := by
  have hall : ((channels cfg).flatMap f).Sublist ([0, 1, 2, 3].flatMap f) := List.filter_sublist.flatMap f
  simpa [Fin.sum_univ_four, add_assoc] using hall.length_le

/-- The slots with an active voice. -/
def Instance.activeSlots (I : Instance) : Finset Nat :=
  (Finset.range I.voices.length).filter fun k => (I.voice k).active = true

theorem active_of_mem_activeSlots {I : Instance} {k : Nat} (h : k ∈ I.activeSlots) : (I.voice k).active = true :=
  (Finset.mem_filter.1 h).2

/-- A sum over the active voices is bounded channel by channel: no two of them have one channel. -/
theorem OnePerChannel.sum_slots_le {cfg : Config} {I : Instance} (h : OnePerChannel cfg I) {f : Nat → Nat}
    {g : Fin 4 → Nat} (hoff : ∀ k, (I.voice k).active ≠ true → f k = 0)
    (hon : ∀ k, (I.voice k).active = true → f k ≤ g (I.voice k).channel) :
    ∑ k ∈ Finset.range I.voices.length, f k ≤ ∑ c, g c := by
  calc ∑ k ∈ Finset.range I.voices.length, f k
      = ∑ k ∈ I.activeSlots, f k := (Finset.sum_filter_of_ne fun k _ hk => not_imp_comm.1 (hoff k) hk).symm
    _ ≤ ∑ k ∈ I.activeSlots, g (I.voice k).channel :=
        Finset.sum_le_sum fun k hk => hon k (active_of_mem_activeSlots hk)
    _ = ∑ c ∈ I.activeSlots.image fun k => (I.voice k).channel, g c :=
        (Finset.sum_image fun k hk j hj hc =>
          h.distinct k j (active_of_mem_activeSlots hk) (active_of_mem_activeSlots hj) hc).symm
    _ ≤ ∑ c, g c := Finset.sum_le_sum_of_subset (Finset.subset_univ _)

/-- The writes of step 4 for a channel: one if it is idle then. -/
def idleLoad (cfg : Config) (I : Instance) (c : Fin 4) : Nat := if (I.advanced cfg.fpb).busy c = true then 0 else 1

theorem length_idleWrites_le (cfg : Config) (I : Instance) :
    (idleWrites cfg (I.advanced cfg.fpb)).length ≤ ∑ c, idleLoad cfg I c := by
  refine (length_flatMap_channels_le ..).trans_eq (Finset.sum_congr rfl fun c _ => ?_)
  rw [apply_ite List.length, length_silenceWrites]
  rfl

/-- A channel's encoder writes more than the silence of a voice that ends, even with the silence of step 4. -/
theorem one_add_idleLoad_le (cfg : Config) (I : Instance) (c : Fin 4) :
    1 + idleLoad cfg I c ≤ channelLoad I.chip c := by
  have htwo : ∀ chip c, 2 ≤ channelLoad chip c := by
    intro chip
    cases chip <;> decide
  have hc := htwo I.chip c
  unfold idleLoad
  split <;> omega

/-- Steps 2 and 3: a voice that ends has one silence, and one that survives keeps its channel from being idle. -/
theorem length_voiceSteps_le {cfg : Config} {I : Instance} (h : OnePerChannel cfg I) (level : Nat → Rat) :
    (retireWrites I (I.advanced cfg.fpb)).length + (encodeWrites cfg level (I.advanced cfg.fpb)).length ≤
      ∑ c, (channelLoad I.chip c - idleLoad cfg I c) := by
  rw [retireWrites_advanced, encodeWrites_advanced, length_flatMap_slots, length_flatMap_slots,
    ← Finset.sum_add_distrib]
  refine h.sum_slots_le (fun k hk => by simp [hk]) fun k hk => ?_
  by_cases hidle : ((I.voice k).env.advance cfg.fpb).stage = .idle
  · simpa [hk, hidle, length_silenceWrites] using Nat.le_sub_of_add_le (one_add_idleLoad_le cfg I _)
  · have hbusy : idleLoad cfg I (I.voice k).channel = 0 := if_pos ((busy_advanced cfg I _).2 ⟨k, ⟨hk, hidle⟩, rfl⟩)
    simpa [hk, hidle, hbusy] using length_voiceWrites_le cfg I (level k) (I.voice k)

/-- R459: the init writes and each channel's share. -/
theorem length_blockWrites_le {cfg : Config} {I : Instance} (h : OnePerChannel cfg I) :
    (blockWrites cfg cfg.fpb I).length ≤ match I.chip with | .nes => 16 | .gb => 38 := by
  have hprefix : (prefixWrites I).length ≤ (initWrites I.chip).length := by
    unfold prefixWrites
    split <;> simp
  have hvoices := length_voiceSteps_le h fun k => (I.voice k).env.level
  have hidle := length_idleWrites_le cfg I
  have hchannels : ∑ c, (channelLoad I.chip c - idleLoad cfg I c) + ∑ c, idleLoad cfg I c =
      ∑ c, channelLoad I.chip c := by
    rw [← Finset.sum_add_distrib]
    exact Finset.sum_congr rfl fun c _ =>
      Nat.sub_add_cancel ((Nat.le_add_left ..).trans (one_add_idleLoad_le cfg I c))
  have htotal : ∀ chip : Chip, (initWrites chip).length + ∑ c, channelLoad chip c =
      match chip with | .nes => 16 | .gb => 38 := by
    intro chip
    cases chip <;> rfl
  rw [← htotal]
  simp only [blockWrites, List.length_append]
  omega

/-! ### The times of the writes (R338, R451) -/

theorem time_of_getElem?_stamp {cfg : Config} {ws : List (Addr × Byte)} {k : Nat} {r : WriteRecord}
    (h : (stamp cfg 0 ws)[k]? = some r) : r.time = k * cfg.writeStep := by
  obtain ⟨hk, rfl⟩ := List.getElem?_eq_some_iff.1 h
  have hlt : k < ws.length := by simpa using hk
  simpa [hlt] using congrArg (·[k]?) (times_stamp cfg 0 ws)

theorem times_stamp_increase {cfg : Config} (hstep : 0 < cfg.writeStep) (ws : List (Addr × Byte)) :
    ((stamp cfg 0 ws).map WriteRecord.time).Pairwise (· < ·) := by
  rw [times_stamp, List.pairwise_map]
  refine List.pairwise_lt_range.imp fun hlt => ?_
  gcongr

/-- R339 at the default parameters. -/
theorem budget_default {cfg : Config} (chip : Chip) (hfpb : cfg.fpb = 128) (hsr : cfg.sr = 44100)
    (hnes : cfg.nesClock = 1789773) (hgb : cfg.gbClock = 4194304) :
    budget cfg chip = match chip with | .nes => 5195 | .gb => 12174 := by
  rw [budget_eq, hfpb, hsr, hnes, hgb]
  cases chip <;> rfl

/-- Settles O44: the times are those `stamp` gives, the length is bounded channel by channel (`length_blockWrites_le`),
and at the default parameters that length is below the budget. -/
theorem writeTimesAndBound : Obligations.WriteTimesAndBound := by
  intro s t I J f hinv hs h ht
  obtain ⟨-, -, -, -, -, -, -, -, -, -, hstep, -⟩ := hinv.config
  obtain ⟨-, -, -, -, -, -, -, -, hwrites, -⟩ := renderBlock_spec s.cfg s.cfg.fpb I
  have hbound := length_blockWrites_le (hinv.inst I hs).onePerChannel
  rw [inst_of_render hs h ht, hwrites, length_stamp]
  refine ⟨fun k r hr => time_of_getElem?_stamp hr, times_stamp_increase hstep _, hbound,
    fun hone hfpb hsr hnes hgb => ⟨budget_default I.chip hfpb hsr hnes hgb, fun r hr => ?_⟩⟩
  obtain ⟨k, hk⟩ := List.mem_iff_getElem?.1 hr
  obtain ⟨hlt, -⟩ := List.getElem?_eq_some_iff.1 hk
  rw [length_stamp] at hlt
  rw [time_of_getElem?_stamp hk, hone, mul_one, budget_default I.chip hfpb hsr hnes hgb]
  refine (hlt.trans_le hbound).trans_le ?_
  cases I.chip <;> decide

/-! ### The output buffer (R337, R341..R343) -/

theorem length_channels {cfg : Config} (h : cfg.nChannels ≤ 4) : (channels cfg).length = cfg.nChannels := by
  have hfour : ∀ n ≤ 4, (([0, 1, 2, 3] : List (Fin 4)).filter fun c => decide (c.val < n)).length = n := by decide
  exact hfour _ h

/-- With no voice left every channel is idle (R335). -/
theorem idleWrites_of_not_survives {cfg : Config} {I : Instance} (h : ∀ k, ¬Survives cfg I k) :
    idleWrites cfg (I.advanced cfg.fpb) = (channels cfg).flatMap (silenceWrites I.chip I.params) := by
  refine List.flatMap_congr fun c _ => if_neg fun hbusy => ?_
  obtain ⟨k, hk, -⟩ := (busy_advanced cfg I c).1 hbusy
  exact h k hk

/-- Settles O47: every channel's silence is among the writes of step 4, and the rest is the block's frame. -/
theorem silentWithoutVoices : Obligations.SilentWithoutVoices := by
  intro s I f hs hf hnone
  obtain ⟨-, -, -, -, -, -, -, -, hwrites, -, -, hcycles⟩ := renderBlock_spec s.cfg s.cfg.fpb I
  have hidle := idleWrites_of_not_survives hnone
  have hsilent : (renderBlock s.cfg s.cfg.fpb I).2 = List.replicate (2 * s.cfg.fpb) 0 :=
    renderBlock_silent fun k hactive => by_contra fun hlive => hnone k ⟨hactive, hlive⟩
  refine ⟨_, hsilent ▸ exec_render hs hf, hcycles, fun c hc w hw => ?_, fun h4 => ?_⟩
  · have hmem : w ∈ blockWrites s.cfg s.cfg.fpb I := by
      refine List.mem_append_right _ ?_
      rw [hidle]
      exact List.mem_flatMap.2 ⟨c, mem_channels.2 hc, hw⟩
    rw [← map_stamp s.cfg 0 (blockWrites s.cfg s.cfg.fpb I), ← hwrites] at hmem
    obtain ⟨r, hr, rfl⟩ := List.mem_map.1 hmem
    exact ⟨r, hr, rfl, rfl⟩
  · have hlength : (idleWrites s.cfg (I.advanced s.cfg.fpb)).length = s.cfg.nChannels := by
      simp [hidle, List.length_flatMap, length_silenceWrites, length_channels h4]
    rw [hwrites, length_stamp, blockWrites, List.length_append, hlength]
    exact Nat.le_add_left ..

/-- Frame k of the NES core, on both sides (R340 (b), R342). -/
theorem getElem?_readPcm_nes {I : Instance} {n k : Nat} (hchip : I.chip = .nes) (hk : k < n) :
    (I.readPcm n).1[k]? = ((Config.coreReadMono I.core.inner n).1[k]?).map fun x => (x, x) := by
  simp [Instance.readPcm, hchip, List.getElem?_take_of_lt hk]

/-- Frame k of the Game Boy core (R340 (b), R342). -/
theorem getElem?_readPcm_gb {I : Instance} {n k : Nat} (hchip : I.chip = .gb) (hk : k < n) :
    (I.readPcm n).1[k]? = (Config.coreReadStereo I.core.inner n).1[k]? := by
  simp [Instance.readPcm, hchip, List.getElem?_take_of_lt hk]

/-- The core's state that the samples of a block are read from: after `EndFrame` of the whole write list (R337). -/
theorem core_inner_render (cfg : Config) (I : Instance) :
    ((I.renderWrites cfg cfg.fpb).endFrame (budget cfg I.chip)).core.inner =
      Config.coreEndFrame I.chip I.core.inner (I.core.enqueued ++ (renderBlock cfg cfg.fpb I).1.writes)
        (budget cfg I.chip) := by
  obtain ⟨hchip, -, -, -, -, -, -, -, -, hcore⟩ := renderWrites_spec cfg cfg.fpb I
  obtain ⟨-, -, -, -, -, -, -, -, hwrites, -⟩ := renderBlock_spec cfg cfg.fpb I
  rw [Instance.endFrame, hchip, hcore, hwrites]

/-- R342 with the clamp written out. -/
theorem sat_eq (cfg : Config) (x : Int) :
    sat cfg x = BitVec.ofInt 16 (max (-32768) (min 32767 ⌊(x : Rat) * cfg.outputGain + 1 / 2⌋)) := by
  rw [sat, clamp, rnd]
  congr 1
  omega

/-- Settles O48: with a voice left the buffer holds the frames read after `EndFrame` (`renderBlock_sounding`). -/
theorem outputSamples : Obligations.OutputSamples := by
  intro s I f k0 hs hf hlive
  refine ⟨_, _, exec_render hs hf, ?_⟩
  intro core sample k hk
  have hsample (o : Option Int) : sample o = (o.map (sat s.cfg)).getD 0 := by
    cases o with
    | none => rfl
    | some x => exact (sat_eq s.cfg x).symm
  have hcore : _ = core := core_inner_render s.cfg I
  have hchip : ((I.renderWrites s.cfg s.cfg.fpb).endFrame (budget s.cfg I.chip)).chip = I.chip :=
    (renderWrites_spec s.cfg s.cfg.fpb I).1
  rw [renderBlock_sounding hlive.1 hlive.2]
  generalize (I.renderWrites s.cfg s.cfg.fpb).endFrame (budget s.cfg I.chip) = W at hcore hchip
  obtain ⟨hleft, hright⟩ := fillOut_getElem? s.cfg hk (W.readPcm s.cfg.fpb).1
  rw [hleft, hright]
  cases hI : I.chip with
  | nes =>
    rw [getElem?_readPcm_nes (hchip.trans hI) hk, hcore]
    simp [hsample, Function.comp_def]
  | gb =>
    rw [getElem?_readPcm_gb (hchip.trans hI) hk, hcore]
    simp [hsample, Function.comp_def]

end Sys2Proof.Machine
end

section
/-! PROOFS. The parameter file, read and written by id: SET_PARAM of a field (O35), of the chip (O36) and of the preset
(O37). -/

namespace Sys2Proof.Machine

/-! ### The vector as the list of its fields (R33) -/

theorem mem_presetIds {id : Nat} : id ∈ presetIds ↔ 1 ≤ id ∧ id ≤ 17 := by
  simp only [presetIds, List.mem_cons, List.not_mem_nil, or_false]
  omega

/-- Fields 1..17 in id order. -/
def paramFields (P : Params) : List Int := presetIds.map (paramField P)

/-- The entry of a field stands one place below its id. -/
theorem getElem?_paramFields {id : Nat} (hid : id ∈ presetIds) (P : Params) :
    (paramFields P)[id - 1]? = some (paramField P id) := by
  have hplace : ∀ id ∈ presetIds, presetIds[id - 1]? = some id := by decide
  rw [paramFields, List.getElem?_map, hplace id hid, Option.map_some]

/-- A write to a field replaces the entry of its id and no other. -/
theorem paramFields_setParamField {id : Nat} (hid : id ∈ presetIds) (v : Int) (P : Params) :
    paramFields (setParamField id v P) = (paramFields P).set (id - 1) (paramField (setParamField id v P) id) := by
  unfold presetIds at hid
  fin_cases hid <;> rfl

theorem paramField_setParamField_of_ne {id id' : Nat} (hid : id ∈ presetIds) (hid' : id' ∈ presetIds) (h : id' ≠ id)
    (v : Int) (P : Params) : paramField (setParamField id v P) id' = paramField P id' := by
  have hplace : id - 1 ≠ id' - 1 := by
    rw [mem_presetIds] at hid hid'
    omega
  refine Option.some.inj ?_
  rw [← getElem?_paramFields hid', paramFields_setParamField hid, List.getElem?_set_ne hplace, getElem?_paramFields hid']

theorem modeCode_modeOfCode {c : Int} (h0 : 0 ≤ c) (h2 : c ≤ 2) : modeCode (modeOfCode c) = c := by
  unfold modeOfCode
  split_ifs <;> simp only [modeCode] <;> omega

theorem modeOfCode_modeCode (m : AllocMode) : modeOfCode (modeCode m) = m := by cases m <;> rfl

theorem modeCode_injective : Function.Injective modeCode := Function.LeftInverse.injective modeOfCode_modeCode

/-- The vector is fixed by its fields. -/
theorem params_eq_of_paramField {P Q : Params} (h : ∀ id ∈ presetIds, paramField P id = paramField Q id) : P = Q := by
  simp only [presetIds, List.forall_mem_cons, paramField, Int.natCast_inj, modeCode_injective.eq_iff] at h
  cases P
  cases Q
  simp_all

/-! ### Ranges and clamps (R33, R372) -/

/-- The range column of the statements, from the model's. -/
theorem rangeTable_eq (cfg : Config) : rangeTable cfg = presetIds.map fun id => (id, paramRange cfg id) := rfl

/-- The value `v` lies in the range of the id `id`. -/
def InRange (cfg : Config) (id : Nat) (v : Int) : Prop := (paramRange cfg id).1 ≤ v ∧ v ≤ (paramRange cfg id).2

section
variable {cfg : Config} {id : Nat} {v : Int} {P q : Params}

theorem paramRange_low_le_high (hw : 0 < cfg.wavetables.length) : (paramRange cfg id).1 ≤ (paramRange cfg id).2 := by
  unfold paramRange
  split <;> simp only <;> omega

/-- The two orders of the clamp agree on a range that is not empty. -/
theorem clampParam_eq (hw : 0 < cfg.wavetables.length) (id : Nat) (v : Int) :
    clampParam cfg id v = max (paramRange cfg id).1 (min (paramRange cfg id).2 v) := by
  have := paramRange_low_le_high (id := id) hw
  unfold clampParam clamp
  omega

theorem inRange_clampParam (hw : 0 < cfg.wavetables.length) : InRange cfg id (clampParam cfg id v) := by
  have := paramRange_low_le_high (id := id) hw
  unfold InRange clampParam clamp
  omega

theorem InRange.clampParam (h : InRange cfg id v) : clampParam cfg id v = v := by
  obtain ⟨hlow, hhigh⟩ := h
  rw [Machine.clampParam, clamp, max_eq_right hlow, min_eq_right hhigh]

/-- Every parameter in its range, by id. -/
theorem ParamsOk.inRange (h : ParamsOk cfg P) (hid : id ∈ presetIds) : InRange cfg id (paramField P id) := by
  obtain ⟨⟩ := h
  unfold presetIds at hid
  have hmode : 0 ≤ modeCode P.mode ∧ modeCode P.mode ≤ 2 := by cases P.mode <;> decide
  fin_cases hid <;> simp only [InRange, paramRange, paramField] <;> omega

/-- A value in range is read back as it was written. -/
theorem paramField_setParamField_self (hid : id ∈ presetIds) (h : InRange cfg id v) :
    paramField (setParamField id v P) id = v := by
  have hmode : 0 ≤ v → v ≤ 2 → modeCode (modeOfCode v) = v := modeCode_modeOfCode
  unfold presetIds at hid
  fin_cases hid <;> obtain ⟨hlow, hhigh⟩ := h <;> simp only [paramRange] at hlow hhigh <;>
    simp only [setParamField, paramField] <;> omega

/-- What a write to the field `id` leaves in the field `id'` (R372). -/
theorem paramField_setClamped {id' : Nat} (hw : 0 < cfg.wavetables.length) (hid : id ∈ presetIds)
    (hid' : id' ∈ presetIds) (v : Int) (P : Params) :
    paramField (setParamField id (clampParam cfg id v) P) id' =
      if id' = id then clampParam cfg id v else paramField P id' := by
  split
  next h => rw [h, paramField_setParamField_self hid (inRange_clampParam hw)]
  next h => exact paramField_setParamField_of_ne hid hid' h _ P

/-- Writing back a field's own value (R372). -/
theorem setParamField_self (hw : 0 < cfg.wavetables.length) (h : ParamsOk cfg P) (hid : id ∈ presetIds) :
    setParamField id (clampParam cfg id (paramField P id)) P = P := by
  refine params_eq_of_paramField fun id' hid' => ?_
  rw [paramField_setClamped hw hid hid']
  split
  next e => rw [(h.inRange hid).clampParam, e]
  next => rfl

/-- Loading the fields `ids` of the vector `q`, each clamped. -/
def loadFields (cfg : Config) (q : Params) (ids : List Nat) (P : Params) : Params :=
  ids.foldl (fun P id => setParamField id (clampParam cfg id (paramField q id)) P) P

theorem loadPreset_eq_loadFields (cfg : Config) (q P : Params) :
    loadPreset cfg q P = loadFields cfg q presetIds P := rfl

/-- A field that is loaded holds the value of `q`, however often it is written; any other is kept. -/
theorem paramField_loadFields (hw : 0 < cfg.wavetables.length) (hid : id ∈ presetIds) {ids : List Nat}
    (hids : ∀ j ∈ ids, j ∈ presetIds) (P : Params) :
    paramField (loadFields cfg q ids P) id =
      if id ∈ ids then clampParam cfg id (paramField q id) else paramField P id := by
  induction ids generalizing P with
  | nil => simp [loadFields]
  | cons j ids ih =>
    obtain ⟨hj, hids⟩ := List.forall_mem_cons.1 hids
    have hstep := ih hids (setParamField j (clampParam cfg j (paramField q j)) P)
    rw [paramField_setClamped hw hj hid] at hstep
    refine hstep.trans ?_
    by_cases h : id = j <;> simp [h]

theorem paramField_loadPreset (hw : 0 < cfg.wavetables.length) (hid : id ∈ presetIds) (P : Params) :
    paramField (loadPreset cfg q P) id = clampParam cfg id (paramField q id) := by
  rw [loadPreset_eq_loadFields, paramField_loadFields hw hid (fun _ h => h), if_pos hid]

/-- A vector in its ranges is loaded as it is. -/
theorem loadPreset_of_paramsOk (hw : 0 < cfg.wavetables.length) (h : ParamsOk cfg q) (P : Params) :
    loadPreset cfg q P = q :=
  params_eq_of_paramField fun id hid => by rw [paramField_loadPreset hw hid, (h.inRange hid).clampParam]

/-! ### SET_PARAM by its id (R371) -/

theorem setParam_field (hid : id ∈ presetIds) (v : Int) (I : Instance) :
    I.setParam cfg id v = { I with params := setParamField id (clampParam cfg id v) I.params } := by
  rw [mem_presetIds] at hid
  rw [Instance.setParam, if_neg (by omega), if_neg (by omega), if_pos hid.2]

theorem setParam_unknown (hid : 18 < id) (v : Int) (I : Instance) : I.setParam cfg id v = I := by
  rw [Instance.setParam, if_neg (by omega), if_neg (by omega), if_neg (by omega)]

theorem setPreset_ignored (h : v < 0 ∨ (cfg.presets.length : Int) ≤ v) (I : Instance) : I.setPreset cfg v = I := by
  unfold Instance.setPreset
  split
  · rfl
  · rw [List.getElem?_eq_none (by omega)]

theorem setPreset_loads (h0 : 0 ≤ v) (hq : cfg.presets[v.toNat]? = some q) (I : Instance) :
    I.setPreset cfg v = { I with presetId := v.toNat, params := loadPreset cfg q I.params } := by
  rw [Instance.setPreset, if_neg (by omega), hq]

end

/-- The chip of a SET chip value (R373). -/
theorem chipOfCode_clamp (v : Int) : chipOfCode (clamp v 0 1) = if v ≤ 0 then .nes else .gb := by
  have h : clamp v 0 1 = 0 ↔ v ≤ 0 := by
    unfold clamp
    omega
  simp only [chipOfCode, h]

theorem setChip_selected {I : Instance} {v : Int} (h : I.chip = if v ≤ 0 then .nes else .gb) : I.setChip v = I := by
  rw [Instance.setChip, chipOfCode_clamp, if_pos h.symm]

theorem setChip_other {I : Instance} {v : Int} (h : I.chip ≠ if v ≤ 0 then .nes else .gb) :
    I.setChip v = { I.deactivateAll with chip := if v ≤ 0 then .nes else .gb, initPending := true } := by
  rw [Instance.setChip, chipOfCode_clamp, if_neg h.symm]

theorem exec_setParam {s : State} {I : Instance} (hs : s.inst = some I) (id : BitVec 8) (v : BitVec 16) :
    exec (.setParam id v) s = .next { s with inst := some (I.setParam s.cfg id.toNat v.toInt) } := by
  rw [exec_update rfl, onInstance_some _ hs]
  rfl

/-- An update that returns the instance it was given. -/
theorem State.inst_self {s : State} {I : Instance} (hs : s.inst = some I) : { s with inst := some I } = s := by
  rw [← hs]

/-- Settles O35: one field is written, clamped, and only its id reads another value. -/
theorem setParamClampsOneField : Obligations.SetParamClampsOneField := by
  intro s I v hs hw
  refine ⟨?_, fun id hid => ?_⟩
  · simp only [rangeTable_eq, List.forall_mem_map]
    intro id hid
    have hbyte : (BitVec.ofNat 8 id).toNat = id := by
      rw [mem_presetIds] at hid
      rw [BitVec.toNat_ofNat]
      omega
    refine ⟨_, by rw [exec_setParam hs, hbyte, setParam_field hid], ?_, fun id' hid' hne => ?_, fun hok hv => ?_⟩
    · rw [paramField_setClamped hw hid hid, if_pos rfl, clampParam_eq hw]
    · rw [paramField_setClamped hw hid hid', if_neg hne]
    · rw [hv, setParamField_self hw hok hid]
  · rw [exec_setParam hs, setParam_unknown hid, State.inst_self hs]

/-- Settles O36: the two branches of SET chip (`setChip_selected`, `setChip_other`). -/
theorem setChipEffect : Obligations.SetChipEffect := by
  intro s I v hs
  have hexec : exec (.setParam 0 v) s = .next { s with inst := some (I.setChip v.toInt) } := exec_setParam hs 0 v
  rw [hexec]
  refine ⟨fun h => ?_, fun h => ?_⟩
  · rw [setChip_selected h, State.inst_self hs]
  · rw [setChip_other h]
    exact ⟨_, rfl, rfl, length_deactivateAll I, voice_deactivateAll I⟩

/-- Settles O37: a preset that is loaded reads as its clamped fields (`paramField_loadPreset`). -/
theorem setPresetEffect : Obligations.SetPresetEffect := by
  intro s I v hs hw
  have hexec : exec (.setParam 18 v) s = .next { s with inst := some (I.setPreset s.cfg v.toInt) } :=
    exec_setParam hs 18 v
  refine ⟨fun h => ?_, fun q h0 hq => ⟨_, by rw [hexec, setPreset_loads h0 hq], ?_⟩⟩
  · rw [hexec, setPreset_ignored h, State.inst_self hs]
  · simp only [rangeTable_eq, List.forall_mem_map]
    intro id hid
    rw [paramField_loadPreset hw hid, clampParam_eq hw]

end Sys2Proof.Machine
end

section
/-! PROOFS. A snapshot of the parameters written back into a fresh instance (O39). -/

namespace Sys2Proof.Machine

/-! ### A run over delivered SET_PARAM commands -/

/-- The 16-bit two's complement values. -/
def Fits16 (v : Int) : Prop := -32768 ≤ v ∧ v < 32768

theorem decode_setDelivery {id : Nat} (hid : id < 256) (v : Int) :
    decode (setDelivery id v).packet = .ok (.setParam (.ofNat 8 id) (.ofInt 16 v)) := by
  refine decode_word rfl ?_
  rw [encode_setParam, BitVec.toNat_ofNat, BitVec.toNat_ofInt, Nat.mod_eq_of_lt hid]
  rfl

theorem run_succ {s s' : State} (h : step s = .next s') (k : Nat) :
    Host.Core.run Sys2Proof.core (k + 1) s = Host.Core.run Sys2Proof.core k s' := by
  have hstep : Sys2Proof.core.step s = .next s' := h
  simp only [Host.Core.run, hstep]

/-- A step that takes a SET_PARAM whose operands fit their fields. -/
theorem step_setDelivery {s : State} {I : Instance} (hs : s.inst = some I) {id : Nat} (hid : id < 256) {v : Int}
    (hv : Fits16 v) {rest : List Delivery} (hin : s.inbox = setDelivery id v :: rest) :
    step s = .next { s with inst := some (I.setParam s.cfg id v), inbox := rest, allocOk := true } := by
  have hbyte : (BitVec.ofNat 8 id).toNat = id := by rw [BitVec.toNat_ofNat, Nat.mod_eq_of_lt hid]
  have hvalue : (BitVec.ofInt 16 v).toInt = v := BitVec.toInt_ofInt_eq_self (by decide) hv.1 hv.2
  have hexec := exec_setParam (s := s.take (setDelivery id v) rest) hs (.ofNat 8 id) (.ofInt 16 v)
  rw [hbyte, hvalue] at hexec
  exact (stepRunsDecodedInstruction s _ rest _ hin (decode_setDelivery hid v)).trans hexec

/-- The SET_PARAM commands of the ids `ids`, with the value of each id from `v`. -/
def Instance.setParams (cfg : Config) (v : Nat → Int) (ids : List Nat) (I : Instance) : Instance :=
  ids.foldl (fun I id => I.setParam cfg id (v id)) I

/-- A run over a queue of SET_PARAM commands executes them all. -/
theorem run_setDeliveries {v : Nat → Int} {ids : List Nat} (hids : ∀ id ∈ ids, id < 256 ∧ Fits16 (v id)) {s : State}
    {I : Instance} (hs : s.inst = some I) (hin : s.inbox = ids.map fun id => setDelivery id (v id)) :
    ∃ t : State, Host.Core.run Sys2Proof.core ids.length s = .next t ∧
      t.inst = some (I.setParams s.cfg v ids) ∧ t.inbox = [] := by
  induction ids generalizing s I with
  | nil => exact ⟨s, rfl, hs, hin⟩
  | cons id ids ih =>
    obtain ⟨⟨hid, hv⟩, hids⟩ := List.forall_mem_cons.1 hids
    obtain ⟨t, hrun, ht⟩ := ih hids (s := { s with
      inst := some (I.setParam s.cfg id (v id)), inbox := ids.map _, allocOk := true }) rfl rfl
    refine ⟨t, ?_, ht⟩
    rw [List.length_cons, run_succ (step_setDelivery hs hid hv hin)]
    exact hrun

/-! ### The parts of a snapshot -/

theorem setParams_append (cfg : Config) (v : Nat → Int) (ids ids' : List Nat) (I : Instance) :
    I.setParams cfg v (ids ++ ids') = (I.setParams cfg v ids).setParams cfg v ids' := List.foldl_append

theorem setParams_singleton (cfg : Config) (v : Nat → Int) (id : Nat) (I : Instance) :
    I.setParams cfg v [id] = I.setParam cfg id (v id) := rfl

/-- A pass over fields writes them to the parameter vector and changes nothing else. -/
theorem setParams_fields {cfg : Config} {v : Nat → Int} {q : Params} {ids : List Nat}
    (hids : ∀ id ∈ ids, id ∈ presetIds ∧ v id = paramField q id) (I : Instance) :
    I.setParams cfg v ids = { I with params := loadFields cfg q ids I.params } := by
  induction ids generalizing I with
  | nil => rfl
  | cons id ids ih =>
    obtain ⟨⟨hid, hv⟩, hids⟩ := List.forall_mem_cons.1 hids
    refine (ih hids (I.setParam cfg id (v id))).trans ?_
    rw [setParam_field hid, hv]
    rfl

/-- A pass over all fields of a vector in its ranges makes it the parameter vector. -/
theorem setParams_presetIds {cfg : Config} (hw : 0 < cfg.wavetables.length) {q : Params} (hq : ParamsOk cfg q)
    {v : Nat → Int} (hv : ∀ id ∈ presetIds, v id = paramField q id) (I : Instance) :
    I.setParams cfg v presetIds = { I with params := q } := by
  rw [setParams_fields fun id hid => ⟨hid, hv id hid⟩, ← loadPreset_eq_loadFields, loadPreset_of_paramsOk hw hq]

/-- The value a snapshot of the instance holds for an id. -/
def Instance.snapshotValue (I : Instance) (id : Nat) : Int := (I.getParam id).getD 0

theorem snapshotValue_field {id : Nat} (hid : id ∈ presetIds) (I : Instance) :
    I.snapshotValue id = paramField I.params id := by
  rw [mem_presetIds] at hid
  rw [Instance.snapshotValue, Instance.getParam, if_neg (by omega), if_neg (by omega), if_pos hid.2]
  rfl

/-- A value in range fits the operand, where the wavetables are no more than it can index. -/
theorem InRange.fits16 {cfg : Config} {id : Nat} {v : Int} (h : InRange cfg id v)
    (hw : cfg.wavetables.length ≤ 32768) : Fits16 v := by
  have hlow : -32768 ≤ (paramRange cfg id).1 := by
    unfold paramRange
    split <;> simp
  have hhigh : (paramRange cfg id).2 < 32768 := by
    unfold paramRange
    split <;> simp only <;> omega
  exact ⟨hlow.trans h.1, h.2.trans_lt hhigh⟩

/-- The ids of a snapshot, in its order (R380). -/
def snapshotIds : List Nat := [0] ++ presetIds ++ [18] ++ presetIds

theorem snapshot_eq (I : Instance) : snapshot I = snapshotIds.map fun id => setDelivery id (I.snapshotValue id) := rfl

/-- Every operand of a snapshot fits its field. -/
theorem snapshot_fits {cfg : Config} {I : Instance} (h : InstanceOk cfg I) (hw : cfg.wavetables.length ≤ 32768)
    (hp : cfg.presets.length ≤ 32768) : ∀ id ∈ snapshotIds, id < 256 ∧ Fits16 (I.snapshotValue id) := by
  have hchip : Fits16 (I.snapshotValue 0) := by
    show Fits16 (chipCode I.chip)
    cases I.chip <;> constructor <;> decide
  have hpreset : Fits16 (I.snapshotValue 18) := by
    have hid := h.presetId
    show Fits16 I.presetId
    unfold Fits16
    omega
  have hfield (id : Nat) (hid : id ∈ presetIds) : id < 256 ∧ Fits16 (I.snapshotValue id) := by
    rw [snapshotValue_field hid]
    exact ⟨((mem_presetIds.1 hid).2.trans_lt (by decide)), (h.params.inRange hid).fits16 hw⟩
  simp only [snapshotIds, List.forall_mem_append, List.forall_mem_singleton]
  exact ⟨⟨⟨⟨by decide, hchip⟩, hfield⟩, by decide, hpreset⟩, hfield⟩

theorem chip_setChip_chipCode (c : Chip) (I : Instance) : (I.setChip (chipCode c)).chip = c := by
  have hcode : (if chipCode c ≤ 0 then Chip.nes else .gb) = c := by cases c <;> rfl
  by_cases h : I.chip = c
  · rw [setChip_selected (h.trans hcode.symm), h]
  · rw [setChip_other (by rwa [hcode]), hcode]

/-- The parts of a snapshot in their order: the chip; the fields; the preset, which writes the fields again; the
fields. -/
theorem setParams_snapshotIds {cfg : Config} {I : Instance} (hw : 0 < cfg.wavetables.length) (h : InstanceOk cfg I)
    (R : Instance) :
    R.setParams cfg I.snapshotValue snapshotIds =
      { R.setChip (chipCode I.chip) with presetId := I.presetId, params := I.params } := by
  have hpreset (J : Instance) : ∃ P, J.setPreset cfg I.presetId = { J with presetId := I.presetId, params := P } :=
    ⟨_, setPreset_loads (Int.natCast_nonneg _) (List.getElem?_eq_getElem h.presetId) J⟩
  have hfields := setParams_presetIds hw h.params (v := I.snapshotValue) fun id hid => snapshotValue_field hid I
  simp only [snapshotIds, setParams_append, setParams_singleton, hfields]
  obtain ⟨P, hP⟩ := hpreset _
  exact congrArg (fun J : Instance => { J with params := I.params }) hP

/-- Settles O39: the run executes the snapshot's commands (`run_setDeliveries`), whose effect is
`setParams_snapshotIds`. -/
theorem snapshotRoundTrip : Obligations.SnapshotRoundTrip := by
  intro s I c hinv hs hw hp
  have hI := hinv.inst I hs
  obtain ⟨t, hrun, ht, hempty⟩ := run_setDeliveries (snapshot_fits hI hw hp)
    (s := { s with inst := some (Instance.reset s.cfg c), inbox := snapshot I }) rfl (snapshot_eq I)
  rw [setParams_snapshotIds (wavetables_pos hinv.config) hI] at ht
  exact ⟨t, _, hrun, ht, chip_setChip_chipCode I.chip _, rfl, rfl, hempty⟩

end Sys2Proof.Machine
end

section
/-! PROOFS. CREATE and DESTROY (O2, O4), the mod wheel (O33) and the pitch bend (O34). -/

namespace Sys2Proof.Machine

theorem exec_create_null {s : State} (hs : s.inst = none) (c : Chip) :
    exec (.create c) s =
      if s.allocOk then .next { s with inst := some (Instance.reset s.cfg c), ret := .created }
      else .next { s with ret := .createFailed } := by
  rw [exec_create, execCreate, hs]

theorem exec_create_existing {s : State} {I : Instance} (hs : s.inst = some I) (c : Chip) :
    exec (.create c) s = .refused .alreadyCreated := by
  rw [exec_create, execCreate, hs]

/-- Settles O2: the existing instance is looked at first, then the draw. -/
theorem createOutcomes : Obligations.CreateOutcomes := by
  refine fun c s => ⟨fun I hs => exec_create_existing hs c, fun hs hdraw => ?_, fun hs hdraw => ?_⟩
  · rw [exec_create_null hs, hdraw]
    rfl
  · rw [exec_create_null hs, if_pos hdraw]

/-- Settles O4: CREATE after DESTROY is CREATE on the null state. -/
theorem destroyThenCreate : Obligations.DestroyThenCreate := by
  refine fun s c => ⟨exec_destroy s, exec_create_null rfl c, rfl, fun k => ?_⟩
  rcases voice_reset s.cfg c k with h | h <;> rw [h] <;> rfl

/-- Rounding to the nearest, as a division of natural numbers (R365). -/
theorem modWheelDepth_eq (x : Nat) : modWheelDepth x = (200 * x + 127) / 254 := by
  have hquot : (x : Rat) * 100 / 127 + 1 / 2 = ((200 * x + 127 : Nat) : Rat) / (254 : Nat) := by
    push_cast
    ring
  rw [modWheelDepth, rnd, hquot, Rat.floor_natCast_div_natCast, ← Int.natCast_ediv, Int.toNat_natCast]

/-- Settles O33, by the mode. -/
theorem modWheelEffect : Obligations.ModWheelEffect := by
  intro s I ch x hs
  have hexec : exec (.ccModwheel ch x) s = .next { s with inst := some (I.modWheel s.cfg x.toNat) } := by
    rw [exec_update rfl, onInstance_some _ hs]
  refine ⟨fun hmode => ?_, fun hmode => ?_, rfl, rfl⟩
  · rw [hexec, Instance.modWheel, hmode, State.inst_self hs]
  · rw [hexec, Instance.modWheel, hmode, ← modWheelDepth_eq]

/-- Settles O34: the bend is a linear function of the 14-bit value, and it is below 2^14. -/
theorem pitchBendSetsBend : Obligations.PitchBendSetsBend := by
  intro s I ch b hs
  refine ⟨bendSemitones s.cfg b.toNat, by rw [exec_update rfl, onInstance_some _ hs], ?_, fun hb => ?_, fun hb => ?_,
    fun hrange => ?_⟩
  · rw [bendSemitones]
    push_cast
    ring
  · rw [bendSemitones, hb]
    norm_num
  · rw [bendSemitones, hb]
    ring
  · have hpos : (0 : Rat) < s.cfg.bendRange := by exact_mod_cast hrange
    have hlt : (b.toNat : Rat) < 16384 := by exact_mod_cast b.isLt
    rw [bendSemitones, div_lt_iff₀ (by norm_num)]
    exact mul_lt_mul_of_pos_left (by linarith) hpos

end Sys2Proof.Machine
end

section
/-! PROOFS. RENDER in the null state and with another frame count (O6, O7), the created instance (O3), the step without
an instruction (O10) and the period a channel plays after a block (O50). -/

namespace Sys2Proof.Machine

/-! ### RENDER without a block (R403, R458) -/

/-- Settles O6. -/
theorem nullInstanceRender : Obligations.NullInstanceRender := fun _ f => exec_render_null f

/-- Settles O7. -/
theorem renderRefusesOtherFrameCounts : Obligations.RenderRefusesOtherFrameCounts := by
  intro s I f hs hf
  show execRender f s = _
  rw [execRender, hs]
  exact if_neg hf

/-! ### The created instance (R440) -/

/-- The created envelope, with the sustain level 10/15 in lowest terms. -/
theorem Envelope.created_eq (cfg : Config) :
    Envelope.created cfg =
      { level := 0, stage := .idle, aRate := 1, dRate := timeRate 5 cfg.drDiv cfg.sr
        rRate := timeRate 3 cfg.drDiv cfg.sr, sLevel := 2 / 3 } := by
  have hsustain : ((10 : Nat) : Rat) / 15 = 2 / 3 := by norm_num
  rw [Envelope.created, Envelope.configure_eq]
  simp only [defaultParams, hsustain]
  rfl

theorem voice_reset_of_lt {cfg : Config} {k : Nat} (c : Chip) (hk : k < cfg.poolSize) :
    (Instance.reset cfg c).voice k = Voice.created cfg := by
  simp [Instance.voice, Instance.reset, hk]

/-- Settles O3: every slot holds the created voice, and the other fields are those `Instance.reset` writes. -/
theorem createdInstance : Obligations.CreatedInstance := by
  refine fun cfg c => ⟨rfl, rfl, rfl, List.length_replicate, fun k hk => ?_, rfl, rfl, rfl, rfl, rfl, rfl, rfl, rfl,
    rfl, fun hsr hdiv => ?_⟩
  · rw [voice_reset_of_lt c hk, Voice.created, Envelope.created_eq]
  · rw [hsr, hdiv]
    norm_num [timeRate]

/-! ### A step without an instruction (R413, R81, R82) -/

/-- Every chip register has a row of the table, whatever the value. -/
theorem recordRow_of_mem {a : Nat} (v : Byte) (h : a ∈ chipRegisters) : ∃ i, recordRow a v = some i :=
  Option.isSome_iff_exists.1 (List.all_eq_true.1 (rfl : chipRegisters.all (fun b => (recordRow b v).isSome) = true) a h)

/-- An instruction that is a row of the table acts on the instance alone: the five others are command words. -/
theorem updateOf_recordRow {a : Addr} {v : Byte} {i : Instr} (h : recordRow a.toNat v = some i) :
    ∃ f, updateOf i = some f := by
  refine Option.ne_none_iff_exists'.1 fun hnone => ?_
  have hpacket := encode_of_recordRow h
  obtain ⟨c, rfl⟩ | rfl | ⟨f, rfl⟩ | ⟨id, rfl⟩ | ⟨w, rfl⟩ := updateOf_none hnone
  · cases c <;> cases hpacket
  all_goals cases hpacket

theorem onInstance_ne_refused (f : Config → Instance → Instance) (s : State) (r : Refusal) :
    onInstance f s ≠ .refused r := by
  unfold onInstance
  split <;> nofun

/-- A delivered pattern is refused exactly if its address is no chip register. -/
theorem step_record_refused_iff {s : State} {a : Addr} {v : Byte} {b : Bool} {rest : List Delivery}
    (hin : s.inbox = ⟨.record (a ++ v), b⟩ :: rest) :
    step s = .refused .unknownRegister ↔ a.toNat ∉ chipRegisters := by
  by_cases ha : a.toNat ∈ chipRegisters
  · obtain ⟨i, hrow⟩ := recordRow_of_mem v ha
    obtain ⟨f, hf⟩ := updateOf_recordRow hrow
    rw [stepRunsDecodedInstruction s _ rest i hin (decodeRecord_append a v hrow), exec_update hf]
    exact iff_of_false (onInstance_ne_refused f _ _) (not_not_intro ha)
  · refine iff_of_true ?_ ha
    have hrow : recordRow a.toNat v = none :=
      Option.eq_none_iff_forall_ne_some.2 fun i h => ha (mem_chipRegisters (mapped_of_row h))
    simp only [step, hin, decode, decodeRecord, record_addr, record_value, hrow]

/-- The chip registers as ranges of addresses, without their gaps (R81, R82). -/
theorem mem_chipRegisters_iff (a : Nat) :
    a ∈ chipRegisters ↔
      (0x4000 ≤ a ∧ a ≤ 0x400F ∧ a ≠ 0x4009 ∧ a ≠ 0x400D) ∨ a = 0x4015 ∨ a = 0x4017 ∨
      (0xFF10 ≤ a ∧ a ≤ 0xFF26 ∧ a ≠ 0xFF15 ∧ a ≠ 0xFF1F) ∨ (0xFF30 ≤ a ∧ a ≤ 0xFF3F) := by
  simp only [chipRegisters, nesRegisters, gbRegisters, List.cons_append, List.nil_append, List.mem_cons,
    List.not_mem_nil, or_false]
  omega

/-- Settles O10. -/
theorem stepWithoutInstruction : Obligations.StepWithoutInstruction := by
  refine ⟨fun s hempty => ?_, fun s a v b rest hin => ?_⟩
  · simp only [step, hempty]
  · rw [step_record_refused_iff hin, mem_chipRegisters_iff]
    simp only [not_or, ne_eq]

/-! ### The registers that hold a channel's period (R270, R300) -/

/-- The period registers of a channel, low one first; none on channel 3. -/
def periodAddresses (chip : Chip) (c : Fin 4) : List Addr :=
  (periodRegisters chip c).elim [] fun r => [r.1, r.2]

theorem periodAddresses_eq {chip : Chip} {c : Fin 4} {lo hi : Addr} (h : periodRegisters chip c = some (lo, hi)) :
    periodAddresses chip c = [lo, hi] := by
  rw [periodAddresses, h, Option.elim_some]

theorem period_mem_chipRegisters (chip : Chip) (c : Fin 4) :
    ∀ a ∈ periodAddresses chip c, a.toNat ∈ chipRegisters := by
  rw [← List.all_iff_forall_prop]
  revert c
  cases chip <;> decide

theorem period_not_mem_init (chip : Chip) (c : Fin 4) :
    ∀ a ∈ periodAddresses chip c, a ∉ (initWrites chip).map Prod.fst := by
  rw [← List.all_iff_forall_prop]
  revert c
  cases chip <;> decide

theorem period_not_mem_silence (chip : Chip) (P : Params) (c d : Fin 4) :
    ∀ a ∈ periodAddresses chip c, a ∉ (silenceWrites chip P d).map Prod.fst := by
  rw [addresses_silenceWrites, ← List.all_iff_forall_prop]
  revert c d
  cases chip <;> decide

/-- An encoder writes the period registers of its own channel alone. -/
theorem channel_of_period_mem_encoder (chip : Chip) (c d : Fin 4) (trig : Bool) :
    ∀ a ∈ periodAddresses chip c, a ∈ encoderAddresses chip d trig → d = c := by
  rw [← List.all_iff_forall_prop]
  revert c d trig
  cases chip <;> decide

/-- The byte of the high register in the block that triggers, from the 11-bit value. -/
def triggerHigh : Chip → Nat → Byte
  | .nes, p => nesLengthHigh p
  | .gb, p => gbTriggerHigh p

/-- What an encoder writes to its channel's period registers: the low byte of the computed value in every block, the
high bits in the block that triggers alone (R272..R275, R302..R306). -/
theorem mem_voiceWrites_period {cfg : Config} {I : Instance} {v : Voice} {lo hi : Addr}
    (h : periodRegisters I.chip v.channel = some (lo, hi)) (level : Rat) (b : Byte) :
    let p := channelPeriod cfg I.chip v.channel (pitch cfg I v)
    ((lo, b) ∈ voiceWrites cfg I level v ↔ b = lowByte p) ∧
    ((hi, b) ∈ voiceWrites cfg I level v ↔ v.triggered = false ∧ b = triggerHigh I.chip p) := by
  rw [← Bool.not_eq_true']
  unfold voiceWrites
  generalize (!v.triggered) = trig
  revert h
  cases I.chip with
  | nes =>
    simp only [encNes]
    split <;> rename_i hc <;> rw [hc] <;> rintro ⟨⟩
    all_goals cases trig <;> simp [encNesPulse, encNesTri, nesBase, channelPeriod, triggerHigh]
  | gb =>
    simp only [encGb]
    split <;> rename_i hc <;> rw [hc] <;> rintro ⟨⟩
    all_goals cases trig <;> simp [encGbSquare, encGbWave, gbSquareBase, waveRamWrites, channelPeriod, triggerHigh]

/-! ### The registers after a block -/

/-- Of a block's writes, those to a period register of a channel with a voice that survives are the voice's own
encoder's: no other active voice has the channel (R66 (d)). -/
theorem mem_blockWrites_period {cfg : Config} {I : Instance} {k : Nat} (hI : InstanceOk cfg I) (hk : Survives cfg I k)
    {a : Addr} (ha : a ∈ periodAddresses I.chip (I.voice k).channel) (b : Byte) :
    (a, b) ∈ blockWrites cfg cfg.fpb I ↔ (a, b) ∈ voiceWrites cfg I (I.voice k).env.level (I.voice k) := by
  have hsilence {ws : List (Addr × Byte)} (hws : ∀ w ∈ ws, ∃ c, w ∈ silenceWrites I.chip I.params c) :
      (a, b) ∉ ws := fun hw => by
    obtain ⟨c, hc⟩ := hws _ hw
    exact period_not_mem_silence _ _ _ c a ha (List.mem_map_of_mem hc)
  have hprefix : (a, b) ∉ prefixWrites I := by
    unfold prefixWrites
    split
    · exact fun hw => period_not_mem_init _ _ a ha (List.mem_map_of_mem hw)
    · exact List.not_mem_nil
  have hretire : (a, b) ∉ retireWrites I (I.advanced cfg.fpb) := hsilence fun _ => mem_retireWrites
  have hidle : (a, b) ∉ idleWrites cfg (I.advanced cfg.fpb) := hsilence fun _ => mem_idleWrites
  simp only [blockWrites, List.mem_append, hprefix, hretire, hidle, false_or, or_false, encodeWrites_advanced,
    List.mem_flatMap]
  refine ⟨fun ⟨j, _, hj⟩ => ?_, fun hw => ⟨k, mem_slots.2 (active_lt hk.1), (if_pos hk).symm ▸ hw⟩⟩
  split at hj
  next hlive =>
    have haddr := List.mem_map_of_mem (f := Prod.fst) hj
    rw [addresses_voiceWrites] at haddr
    rwa [← hI.channels j k hlive.1 hk.1 (channel_of_period_mem_encoder _ _ _ _ a ha haddr)]
  · cases hj

/-- An address to which a list writes one value, or nothing unless `p`, reads as that value afterwards, or as before. -/
theorem Memory.read?_apply_stamp {ws : List (Addr × Byte)} {a : Addr} {v : Byte} {p : Prop} [Decidable p]
    (h : ∀ b, (a, b) ∈ ws ↔ p ∧ b = v) (cfg : Config) (n : Nat) (m : List Host.Cell) :
    Memory.read? (Memory.apply m (stamp cfg n ws)) a.toNat = if p then some v else Memory.read? m a.toNat := by
  rw [Memory.read?_apply]
  cases hfind : (stamp cfg n ws).reverse.find? fun r => r.addr.toNat == a.toNat with
  | none =>
    have hp : ¬p := fun hp => by
      have hmem : (a, v) ∈ (stamp cfg n ws).map fun r => (r.addr, r.value) := by
        rw [map_stamp]
        exact (h v).2 ⟨hp, rfl⟩
      obtain ⟨r, hr, heq⟩ := List.mem_map.1 hmem
      exact List.find?_eq_none.1 hfind r (List.mem_reverse.2 hr) (by simp [(Prod.mk.inj heq).1])
    rw [if_neg hp]
    rfl
  | some r =>
    have haddr : r.addr = a := BitVec.eq_of_toNat_eq (by simpa using List.find?_some hfind)
    have hmem := mem_stamp (List.mem_reverse.1 (List.mem_of_find?_eq_some hfind))
    obtain ⟨hp, hv⟩ := (h r.value).1 (haddr ▸ hmem)
    rw [if_pos hp, ← hv]
    rfl

/-! ### The period played (R455) -/

theorem toNat_lowByte (p : Nat) : (lowByte p).toNat = p % 256 := by
  simp [lowByte, byte]

/-- The high bits put together with a low byte. -/
theorem high_append_lowByte (h : Byte) (p : Nat) :
    h.extractLsb' 0 3 ++ lowByte p = BitVec.ofNat 11 (h.toNat % 8 * 256 + p % 256) := by
  apply BitVec.eq_of_toNat_eq
  simp only [toNat_join, toNat_field, toNat_lowByte, BitVec.toNat_ofNat]
  omega

/-- The high register of the block that triggers holds the high bits of the value below its fixed bits. -/
theorem toNat_triggerHigh (chip : Chip) (p : Nat) : (triggerHigh chip p).toNat % 8 = p / 256 % 8 := by
  cases chip with
  | nes => exact (by decide : ∀ x < 8, (byte (0x08 ||| x)).toNat % 8 = x) _ (highBits_lt p)
  | gb => exact (by decide : ∀ x < 8, (byte (0x80 ||| x)).toNat % 8 = x) _ (highBits_lt p)

theorem triggerHigh_append_lowByte (chip : Chip) (p : Nat) :
    (triggerHigh chip p).extractLsb' 0 3 ++ lowByte p = BitVec.ofNat 11 p := by
  rw [high_append_lowByte, toNat_triggerHigh]
  apply BitVec.eq_of_toNat_eq
  simp only [BitVec.toNat_ofNat]
  omega

/-- What is in a chip register before a block, whatever was handed to the core (R81, R82). -/
theorem read?_chipRegister {cfg : Config} {I : Instance} (hI : InstanceOk cfg I) {a : Nat} (ha : a ∈ chipRegisters)
    (ws : List WriteRecord) : ∃ v, Memory.read? (Memory.apply I.core.regs ws) a = some v := by
  obtain ⟨v, hv⟩ := Memory.read?_of_mem (hI.regsAll ▸ ha)
  rw [Memory.read?_apply, hv]
  exact Option.isSome_iff_exists.1 (by simp)

/-- The period registers of a surviving voice's channel after a block. -/
theorem read?_period_render {cfg : Config} {I : Instance} {k : Nat} {lo hi : Addr} (hI : InstanceOk cfg I)
    (hk : Survives cfg I k) (h : periodRegisters I.chip (I.voice k).channel = some (lo, hi)) :
    let regs := (renderBlock cfg cfg.fpb I).1.core.regs
    let p := channelPeriod cfg I.chip (I.voice k).channel (pitch cfg I (I.voice k))
    Memory.read? regs lo.toNat = some (lowByte p) ∧
    Memory.read? regs hi.toNat =
      if (I.voice k).triggered = false then some (triggerHigh I.chip p)
      else Memory.read? (Memory.apply I.core.regs I.core.enqueued) hi.toNat := by
  have hperiod := periodAddresses_eq h
  have hencoder := mem_voiceWrites_period (cfg := cfg) h (I.voice k).env.level
  obtain ⟨-, -, -, -, -, -, -, -, -, -, hregs, -⟩ := renderBlock_spec cfg cfg.fpb I
  have hsplit : Memory.apply I.core.regs (I.core.enqueued ++ stamp cfg 0 (blockWrites cfg cfg.fpb I)) =
      Memory.apply (Memory.apply I.core.regs I.core.enqueued) (stamp cfg 0 (blockWrites cfg cfg.fpb I)) :=
    List.foldl_append
  simp only [hregs, hsplit]
  refine ⟨?_, Memory.read?_apply_stamp (fun b => ?_) cfg 0 _⟩
  · refine (Memory.read?_apply_stamp (p := True) (fun b => ?_) cfg 0 _).trans (if_pos trivial)
    rw [mem_blockWrites_period hI hk (by simp [hperiod]), (hencoder b).1, true_and]
  · rw [mem_blockWrites_period hI hk (by simp [hperiod]), (hencoder b).2]

/-- Settles O50: the voice's encoder is alone in writing its channel's period registers (`read?_period_render`). -/
theorem staleHighBits : Obligations.StaleHighBits := by
  intro s t I J f k lo hi hinv hs h ht hk hperiod
  obtain rfl := inst_of_render hs h ht
  have hI := hinv.inst I hs
  obtain ⟨hlow, hhigh⟩ := read?_period_render hI hk hperiod
  refine ⟨fun huntriggered => ?_, fun htriggered => ?_⟩
  · rw [if_pos huntriggered] at hhigh
    rw [playedPeriod, hlow, hhigh, ← triggerHigh_append_lowByte I.chip]
  · have hmem : hi.toNat ∈ chipRegisters :=
      period_mem_chipRegisters I.chip (I.voice k).channel hi (by simp [periodAddresses_eq hperiod])
    obtain ⟨b, hb⟩ := read?_chipRegister hI hmem I.core.enqueued
    rw [if_neg (by simp [htriggered]), hb] at hhigh
    exact ⟨b, hb, by rw [playedPeriod, hlow, hhigh, ← high_append_lowByte]⟩

end Sys2Proof.Machine
end
